-- ==== Sys2Proof/Word.lean ====
section
/-! DEFINITION. The word type and the small vocabularies of the block: bytes, electrical levels, compare
channels, output lines, and the two four-fold records that are indexed by them. -/

namespace Sys2Proof

/-- One byte of the transport, of IMAGE or of CMD (R64). -/
abbrev Byte := BitVec 8

/-- An electrical output level (R17, R39): LOW is encoded 0 and HIGH 1. -/
inductive Level where
  | low
  | high
deriving DecidableEq, Repr, Inhabited

/-- The other level, written `¬` in R39. -/
def Level.flip : Level → Level
  | .low => .high
  | .high => .low

/-- The level's code (R17). -/
def Level.code : Level → BitVec 1
  | .low => 0
  | .high => 1

/-- A compare channel, which is also the event it makes: A, B, C, D are channels 0, 1, 2, 3 (R87). -/
inductive Chan where
  | chA
  | chB
  | chC
  | chD
deriving DecidableEq, Repr, Inhabited

/-- The channel identity passed to the callback (R87). -/
def Chan.code : Chan → BitVec 2
  | .chA => 0
  | .chB => 1
  | .chC => 2
  | .chD => 3

/-- An output line (R39, R88): DATA = 0, LATCH = 1, CLOCK = 2, FINISH = 3. -/
inductive LineId where
  | data
  | latch
  | clock
  | finish
deriving DecidableEq, Repr, Inhabited

/-- The line's 2-bit id (R88). -/
def LineId.code : LineId → BitVec 2
  | .data => 0
  | .latch => 1
  | .clock => 2
  | .finish => 3

/-- One value for each compare channel (R32, R33, R36). -/
structure PerChan (α : Type) where
  a : α
  b : α
  c : α
  d : α
deriving DecidableEq, Repr, Inhabited

/-- The element of channel `ch`. -/
def PerChan.get {α : Type} (v : PerChan α) : Chan → α
  | .chA => v.a
  | .chB => v.b
  | .chC => v.c
  | .chD => v.d

/-- The record with channel `ch`'s element replaced. -/
def PerChan.set {α : Type} (v : PerChan α) (ch : Chan) (x : α) : PerChan α :=
  match ch with
  | .chA => { v with a := x }
  | .chB => { v with b := x }
  | .chC => { v with c := x }
  | .chD => { v with d := x }

/-- The levels of the four output lines, `LINE[0..3]` (R39). -/
structure Lines where
  data : Level
  latch : Level
  clock : Level
  finish : Level
deriving DecidableEq, Repr, Inhabited

/-- The level of one line. -/
def Lines.get (v : Lines) : LineId → Level
  | .data => v.data
  | .latch => v.latch
  | .clock => v.clock
  | .finish => v.finish

/-- The four levels with one line's replaced. -/
def Lines.set (v : Lines) (id : LineId) (x : Level) : Lines :=
  match id with
  | .data => { v with data := x }
  | .latch => { v with latch := x }
  | .clock => { v with clock := x }
  | .finish => { v with finish := x }

end Sys2Proof
end

