-- ==== Sys2Proof/Config.lean ====
section
/-! DEFINITION. What the spec fixes for this hardware (R6, R7, R9), the parameters it leaves open (R8, R10 to
R13, R45), the moves by which the agents are interleaved, and the free values. A free value is an opaque
constant: nothing in Lean can tell which value it has. -/

namespace Sys2Proof

/-- IMAGE_SIZE (R6). -/
def imageSize : Nat := 65536

/-- CMD_CAP (R7). -/
def cmdCap : Nat := 512

/-- What a fatal transport fault leads to (R13, R204). -/
inductive FaultPolicy where
  | halt
  | reset
deriving DecidableEq, Repr, Inhabited

/-- SERIAL_FORMAT (R12). No rule reads it; `parity` is a code the spec does not give. -/
structure SerialFormat where
  baud : Nat
  dataBits : Nat
  parity : Nat
  stopBits : Nat
deriving DecidableEq, Repr, Inhabited

/-- PIN_MAP (R13): the physical pin of each line. -/
structure PinMap where
  data : Nat
  latch : Nat
  clock : Nat
  finish : Nat
deriving DecidableEq, Repr, Inhabited

/-- The pin of a line. -/
def PinMap.get (p : PinMap) : LineId → Nat
  | .data => p.data
  | .latch => p.latch
  | .clock => p.clock
  | .finish => p.finish

/-- The parameters the spec leaves open (R10 to R13). -/
structure Platform where
  /-- T1 − 1 (R10). The timing parameters are held so that `0 < T1 < T2 < T3 < T4 < 2^TIMER_BITS` holds by form. -/
  t1BeyondFirst : Nat
  /-- T2 − T1 − 1 (R10). -/
  gapAB : Nat
  /-- T3 − T2 − 1 (R10). -/
  gapBC : Nat
  /-- T4 − T3 − 1 (R10). -/
  gapCD : Nat
  /-- F_TICK, the tick rate (R10); no rule reads it (R261). -/
  fTick : Nat
  /-- The bits of the timer's counter beyond the fewest that hold T4 (R10). -/
  bitsBeyondT4 : Nat
  /-- LATCH_ACTIVE_LEVEL (R11). -/
  latchActive : Level
  /-- FINISH_ACTIVE_LEVEL (R11). -/
  finishActive : Level
  /-- RX_CAP − 1 (R12): the receive buffering beyond its first byte, so that RX_CAP ≥ 1 holds by form. -/
  rxBeyondFirst : Nat
  /-- TX_CAP − 1 (R12): the transmit buffering beyond its first byte, so that TX_CAP ≥ 1 holds by form. -/
  txBeyondFirst : Nat
  /-- SERIAL_FORMAT (R12); no rule reads it. -/
  serialFormat : SerialFormat
  /-- PIN_MAP (R13). -/
  pinMap : PinMap
  /-- FAULT_POLICY (R13). -/
  faultPolicy : FaultPolicy
deriving DecidableEq, Repr, Inhabited

/-- T1 (R10), the compare offset of channel A in ticks. -/
def Platform.t1 (p : Platform) : Nat := p.t1BeyondFirst + 1

/-- T2 (R10), the compare offset of channel B. -/
def Platform.t2 (p : Platform) : Nat := p.t1 + p.gapAB + 1

/-- T3 (R10), the compare offset of channel C. -/
def Platform.t3 (p : Platform) : Nat := p.t2 + p.gapBC + 1

/-- T4 (R10), the compare offset of channel D and the period. -/
def Platform.t4 (p : Platform) : Nat := p.t3 + p.gapCD + 1

/-- TIMER_BITS (R10), the width of the timer's counter: `T4 < 2^TIMER_BITS`. -/
def Platform.timerBits (p : Platform) : Nat := Nat.log2 p.t4 + 1 + p.bitsBeyondT4

/-- RX_CAP (R12), at least 1. -/
def Platform.rxCap (p : Platform) : Nat := p.rxBeyondFirst + 1

/-- TX_CAP (R12), at least 1. -/
def Platform.txCap (p : Platform) : Nat := p.txBeyondFirst + 1

/-- The parameters of the step (R45). Every rule reads them and none writes them. -/
structure Params where
  /-- TERMINAL_COUNT (R8), 64 for this hardware. -/
  terminalCount : Nat
  /-- Whether the timer moves by ticks (R214) in place of the abstract firing rule (R208). -/
  tickLevel : Bool
  /-- The open parameters. -/
  platform : Platform
deriving DecidableEq, Repr, Inhabited

/-- The configurations the model accepts: `1 ≤ TERMINAL_COUNT ≤ IMAGE_SIZE` (R8, D23). -/
def Params.legal (p : Params) : Bool :=
  decide (1 ≤ p.terminalCount) && decide (p.terminalCount ≤ imageSize)

/-- The constraint R10 puts on the timing parameters. Every platform meets it (Platform.timing_holds). -/
def Platform.timingLegal (p : Platform) : Bool :=
  decide (0 < p.t1) && decide (p.t1 < p.t2) && decide (p.t2 < p.t3) && decide (p.t3 < p.t4)
    && decide (p.t4 < 2 ^ p.timerBits)

/-- One choice of the interleaving: which agent takes the next step (R20), and what the environment gives it. -/
inductive Move where
  /-- The foreground takes its step, if it has one. -/
  | fg
  /-- The timer fires (R208), or ticks (R214). -/
  | timer
  /-- The interrupt context takes its step: D_SEND while a handler is in progress, else DISPATCH of `ch` (R218). -/
  | isr (ch : Chan)
  /-- The host pushes a byte (R224, HOST_PUSH). -/
  | push (b : Byte)
  /-- The host pulls a byte (R224, HOST_PULL). -/
  | pull
  /-- The serial line carries a malformed frame (R201). -/
  | framing
  /-- The transport reports a FIFO error (R201). -/
  | fifo
  /-- The platform resets the block after a fault (R204, R250). -/
  | reset
deriving DecidableEq, Repr, Inhabited

/-- FREE VALUE: the open parameters of the machine that leaves reset (R10 to R13). -/
opaque Config.platform : Platform

/-- FREE VALUE: the n-th choice of the interleaving where none was placed in State.agenda. -/
opaque Config.freeMove : Nat → Move

/-- FREE VALUE: the byte IMAGE holds at an index after a reset, before anything wrote it (R43, D20).
The first argument numbers the reset. -/
opaque Config.freeImageByte : Nat → Nat → Byte

/-- FREE VALUE: the byte CMD holds at an index after a reset, before anything wrote it (R44, D21).
The first argument numbers the reset. -/
opaque Config.freeCmdByte : Nat → Nat → Byte

/-- FREE VALUE: what a timer register holds after a write of a value wider than TIMER_BITS. DESIGN CHOICE (log entry 9): it
depends on the written value alone, whichever register and whenever. -/
opaque Config.freeTicks : Nat → Nat

end Sys2Proof
end

