-- ==== Sys2Proof/Syntax.lean ====
section
/-! DEFINITION. The operations of the block: one constructor for each row of spec/opcode_table.json (R92). Operands
are those the row's encoding or its issuer gives; operands a rule reads from state stand in State. -/

namespace Sys2Proof

/-- One operation of the block (R92). -/
inductive Instr where
  /-- LINE_APPEND (R101): a non-newline byte in LineDelimited mode. -/
  | lineAppend (b : Byte)
  /-- LINE_END (R102): a newline in LineDelimited mode. -/
  | lineEnd
  /-- CMD_TRANSFER (R103). -/
  | cmdTransfer
  /-- CMD_BOOT3WB (R104). -/
  | cmdBoot3wb
  /-- CMD_OTHER (R105): any other completed line, newline included. -/
  | cmdOther (line : List Byte)
  /-- DATA_BYTE (R107): a raw byte before the last. -/
  | dataByte (b : Byte)
  /-- DATA_LAST (R108): the IMAGE_SIZE-th raw byte. -/
  | dataLast (b : Byte)
  /-- FG_SEND (R109). -/
  | fgSend
  /-- DECIDE (R132). -/
  | decideBoot
  /-- ARM (R133). -/
  | arm
  /-- START (R134). -/
  | start
  /-- WAIT_RUN (R135). -/
  | waitRun
  /-- WAIT_IDLE (R136). -/
  | waitIdle
  /-- EVT_A (R152), bit emit. -/
  | evtA
  /-- EVT_B (R153), word-boundary latch. -/
  | evtB
  /-- EVT_C (R154), clock falling edge. -/
  | evtC
  /-- EVT_D (R155), clock rising edge and termination check. -/
  | evtD
  /-- D_SEND (R156), one step of the terminal completion sequence. -/
  | dSend
  /-- EVT_IGNORED (R157): a compare event when SER_STATE is not RUNNING. -/
  | evtIgnored (ch : Chan)
  /-- SET_LINE (R164). -/
  | setLine (id : LineId) (level : Level)
  /-- TIMER_FIRE (R208). -/
  | timerFire
  /-- TIMER_CONFIGURE (R209). -/
  | timerConfigure (p : Nat)
  /-- TIMER_ARM_CHANNEL (R210). -/
  | timerArmChannel (ch : Chan) (off : Nat) (clr : Bool)
  /-- TIMER_ENABLE (R211). -/
  | timerEnable
  /-- TIMER_DISABLE (R212). -/
  | timerDisable
  /-- DISPATCH (R216) of a pending channel. -/
  | dispatch (ch : Chan)
  /-- FAULT_FRAMING (R201). -/
  | faultFraming
  /-- FAULT_RX_OVERRUN (R201): `b` is the lost byte. -/
  | faultRxOverrun (b : Byte)
  /-- FAULT_FIFO (R201). -/
  | faultFifo
  /-- FAULT_CMD_OVERRUN (R111): a byte for a full command buffer. -/
  | faultCmdOverrun (b : Byte)
  /-- FAULT_IMAGE_OOB (R203): EVT_A's code with BYTE_INDEX outside IMAGE. -/
  | faultImageOob
deriving DecidableEq, Repr

end Sys2Proof
end

