-- ==== Sys2Proof/WellFormed.lean ====
section
/-! DEFINITION. Which operations have an encoding: the checks on operands that R81, R84, R85, R90, R101 and R210
give. -/

namespace Sys2Proof

/-- The newline byte 0x0A (R14, R81). -/
def newline : Byte := 0x0A

/-- The literal "TRANSFER\n" (R84). -/
def transferLiteral : List Byte := [0x54, 0x52, 0x41, 0x4E, 0x53, 0x46, 0x45, 0x52, 0x0A]

/-- The literal "BOOT3WB\n" (R84). -/
def boot3wbLiteral : List Byte := [0x42, 0x4F, 0x4F, 0x54, 0x33, 0x57, 0x42, 0x0A]

/-- An input line (R81): it ends with its only newline. -/
def isLine : List Byte → Bool
  | [] => false
  | b :: rest => if b = newline then rest.isEmpty else isLine rest

/-- The line's length is legal (R90): its newline is among the first CMD_CAP bytes. -/
def lineFits (line : List Byte) : Bool := decide (line.length ≤ cmdCap)

/-- The line is neither command literal (R85). -/
def notLiteral (line : List Byte) : Bool :=
  decide (line ≠ transferLiteral) && decide (line ≠ boot3wbLiteral)

/-- The operation's operands satisfy what its rule demands of them. -/
def Instr.wellFormed : Instr → Bool
  | .lineAppend b => decide (b ≠ newline)
  | .cmdOther line => isLine line && lineFits line && notLiteral line
  | .timerArmChannel ch _ clr => !clr || decide (ch = .chD)
  | .lineEnd | .cmdTransfer | .cmdBoot3wb | .dataByte _ | .dataLast _ | .fgSend | .decideBoot | .arm
  | .start | .waitRun | .waitIdle | .evtA | .evtB | .evtC | .evtD | .dSend | .evtIgnored _
  | .setLine _ _ | .timerFire | .timerConfigure _ | .timerEnable | .timerDisable | .dispatch _
  | .faultFraming | .faultRxOverrun _ | .faultFifo | .faultCmdOverrun _ | .faultImageOob => true

end Sys2Proof
end

