-- ==== Sys2Proof/Decode.lean ====
section
/-! DEFINITION. The decoder and the encoder (R80 to R92). The block has no instruction words: what a unit means
depends on the format that the state selects, so the decoder reads a selector and the unit's bytes. It is total on
any bytes and rejects by name. Codes narrower than a byte stand in its low bits, the bits above them zero. -/

namespace Sys2Proof

/-- An operation that no bytes encode (R80, CTRL): the sequencer, the handler or the timer selects it. DESIGN CHOICE (log
entry 25): R92 gives TIMER_FIRE and DISPATCH the format EVT, a 2-bit unit by R80, but the table gives both rows an empty
encoding; they stand here, with no bytes. TIMER_FIRE's channel is TMR_NEXT (R208), and DISPATCH's, which R216 leaves to
the choice of R218, is held in the selector. -/
inductive Control where
  | fgSend
  | decideBoot
  | arm
  | start
  | waitRun
  | waitIdle
  | dSend
  | timerFire
  | timerConfigure (p : Nat)
  | timerArmChannel (ch : Chan) (off : Nat) (clr : Bool)
  | timerEnable
  | timerDisable
  | dispatch (ch : Chan)
deriving DecidableEq, Repr

/-- A transport condition (R80, XPORT). -/
inductive XportCond where
  | framing
  | rxOverrun
  | fifo
deriving DecidableEq, Repr

/-- What the state has selected before the unit's bytes are read (R83, R87, R92 "selected by"). -/
inductive Selector where
  /-- A byte in LineDelimited mode; `room` says CMD_LEN < CMD_CAP. -/
  | lineByte (room : Bool)
  /-- A completed line, to be classified (R85). -/
  | lineDone
  /-- A byte in FixedLength mode; `last` says DATA_CNT = IMAGE_SIZE − 1. -/
  | rawByte (last : Bool)
  /-- A compare event; `running` says SER_STATE = RUNNING and `inImage` that BYTE_INDEX < IMAGE_SIZE. -/
  | event (running inImage : Bool)
  /-- A line write. -/
  | gpio
  /-- An operation with no bytes. -/
  | control (c : Control)
  /-- A transport condition. -/
  | transport (x : XportCond)
deriving DecidableEq, Repr

/-- Why bytes encode no operation. -/
inductive Reject where
  /-- The unit has no byte. -/
  | noBytes
  /-- No newline ends the line (R81). -/
  | unterminatedLine
  /-- The line's newline is not among its first CMD_CAP bytes (R90). -/
  | overlongLine
  /-- The byte is no 2-bit channel identity (R87). -/
  | notAChannel
  /-- The byte is no 3-bit line write (R88). -/
  | notALineWrite
  /-- A channel other than D is armed with is_final_reset (R210). -/
  | finalResetNotD
deriving DecidableEq, Repr

/-- What a decoding answers: an operation and the bytes after it, or a rejection by name. -/
inductive Decoded where
  | ok (i : Instr) (rest : List Byte)
  | reject (r : Reject)
deriving DecidableEq, Repr

/-- What a completed line is (R85). -/
inductive LineKind where
  | transfer
  | boot3wb
  | other
deriving DecidableEq, Repr

/-- The classification of a completed line, exact in length and in every byte (R85). -/
def classify (line : List Byte) : LineKind :=
  if line.length = 9 ∧ line = transferLiteral then .transfer
  else if line.length = 8 ∧ line = boot3wbLiteral then .boot3wb
  else .other

/-- The bytes up to and with the first newline, and the bytes after it (R81). -/
def splitLine : List Byte → Option (List Byte × List Byte)
  | [] => none
  | b :: rest =>
    if b = newline then some ([b], rest)
    else
      match splitLine rest with
      | some (line, after) => some (b :: line, after)
      | none => none

/-- The channel whose identity a byte holds (R87). -/
def channelOfByte (b : Byte) : Option Chan :=
  if b = 0 then some .chA
  else if b = 1 then some .chB
  else if b = 2 then some .chC
  else if b = 3 then some .chD
  else none

/-- The line write `iil` a byte holds: the line id in bits 2:1 and the level in bit 0 (R88, R164). -/
def lineWriteOfByte (b : Byte) : Option (LineId × Level) :=
  if b = 0 then some (.data, .low)
  else if b = 1 then some (.data, .high)
  else if b = 2 then some (.latch, .low)
  else if b = 3 then some (.latch, .high)
  else if b = 4 then some (.clock, .low)
  else if b = 5 then some (.clock, .high)
  else if b = 6 then some (.finish, .low)
  else if b = 7 then some (.finish, .high)
  else none

/-- The operation a compare event of channel `ch` selects (R87, R151, R203). -/
def eventInstr (running inImage : Bool) (ch : Chan) : Instr :=
  match running, ch with
  | false, ch => .evtIgnored ch
  | true, .chA => if inImage then .evtA else .faultImageOob
  | true, .chB => .evtB
  | true, .chC => .evtC
  | true, .chD => .evtD

/-- The operation a control selector names (R92). -/
def Control.instr : Control → Instr
  | .fgSend => .fgSend
  | .decideBoot => .decideBoot
  | .arm => .arm
  | .start => .start
  | .waitRun => .waitRun
  | .waitIdle => .waitIdle
  | .dSend => .dSend
  | .timerFire => .timerFire
  | .timerConfigure p => .timerConfigure p
  | .timerArmChannel ch off clr => .timerArmChannel ch off clr
  | .timerEnable => .timerEnable
  | .timerDisable => .timerDisable
  | .dispatch ch => .dispatch ch

/-- A completed line's operation, with the bytes after the line (R81, R85, R90). -/
def decodeLine (bytes : List Byte) : Decoded :=
  match splitLine bytes with
  | none => .reject .unterminatedLine
  | some (line, rest) =>
    if lineFits line then
      match classify line with
      | .transfer => .ok .cmdTransfer rest
      | .boot3wb => .ok .cmdBoot3wb rest
      | .other => .ok (.cmdOther line) rest
    else .reject .overlongLine

/-- The operation that `bytes` begin with where `sel` is selected, and the bytes after it (R80, R83, R92). -/
def decode (sel : Selector) (bytes : List Byte) : Decoded :=
  match sel with
  | .lineByte room =>
    match bytes with
    | [] => .reject .noBytes
    | b :: rest =>
      if room then (if b = newline then .ok .lineEnd rest else .ok (.lineAppend b) rest)
      else .ok (.faultCmdOverrun b) rest
  | .lineDone => decodeLine bytes
  | .rawByte last =>
    match bytes with
    | [] => .reject .noBytes
    | b :: rest => if last then .ok (.dataLast b) rest else .ok (.dataByte b) rest
  | .event running inImage =>
    match bytes with
    | [] => .reject .noBytes
    | b :: rest =>
      match channelOfByte b with
      | some ch => .ok (eventInstr running inImage ch) rest
      | none => .reject .notAChannel
  | .gpio =>
    match bytes with
    | [] => .reject .noBytes
    | b :: rest =>
      match lineWriteOfByte b with
      | some (id, level) => .ok (.setLine id level) rest
      | none => .reject .notALineWrite
  | .control c => if c.instr.wellFormed then .ok c.instr bytes else .reject .finalResetNotD
  | .transport .framing => .ok .faultFraming bytes
  | .transport .fifo => .ok .faultFifo bytes
  | .transport .rxOverrun =>
    match bytes with
    | [] => .reject .noBytes
    | b :: rest => .ok (.faultRxOverrun b) rest

/-! The encoder. -/

/-- The byte that holds a channel identity (R87). -/
def channelByte (ch : Chan) : Byte := ch.code.setWidth 8

/-- The byte that holds a line write `iil` (R88, R164). -/
def lineWriteByte (id : LineId) (level : Level) : Byte := (id.code ++ level.code).setWidth 8

/-- The selector under which an operation is decoded (R92). -/
def Instr.selector : Instr → Selector
  | .lineAppend _ => .lineByte true
  | .lineEnd => .lineByte true
  | .cmdTransfer => .lineDone
  | .cmdBoot3wb => .lineDone
  | .cmdOther _ => .lineDone
  | .dataByte _ => .rawByte false
  | .dataLast _ => .rawByte true
  | .fgSend => .control .fgSend
  | .decideBoot => .control .decideBoot
  | .arm => .control .arm
  | .start => .control .start
  | .waitRun => .control .waitRun
  | .waitIdle => .control .waitIdle
  | .evtA => .event true true
  | .evtB => .event true true
  | .evtC => .event true true
  | .evtD => .event true true
  | .dSend => .control .dSend
  | .evtIgnored _ => .event false true
  | .setLine _ _ => .gpio
  | .timerFire => .control .timerFire
  | .timerConfigure p => .control (.timerConfigure p)
  | .timerArmChannel ch off clr => .control (.timerArmChannel ch off clr)
  | .timerEnable => .control .timerEnable
  | .timerDisable => .control .timerDisable
  | .dispatch ch => .control (.dispatch ch)
  | .faultFraming => .transport .framing
  | .faultRxOverrun _ => .transport .rxOverrun
  | .faultFifo => .transport .fifo
  | .faultCmdOverrun _ => .lineByte false
  | .faultImageOob => .event true false

/-- The bytes of an operation, from the same formats (R81 to R88). -/
def encode : Instr → List Byte
  | .lineAppend b => [b]
  | .lineEnd => [newline]
  | .cmdTransfer => transferLiteral
  | .cmdBoot3wb => boot3wbLiteral
  | .cmdOther line => line
  | .dataByte b => [b]
  | .dataLast b => [b]
  | .evtA => [channelByte .chA]
  | .evtB => [channelByte .chB]
  | .evtC => [channelByte .chC]
  | .evtD => [channelByte .chD]
  | .evtIgnored ch => [channelByte ch]
  | .setLine id level => [lineWriteByte id level]
  | .faultRxOverrun b => [b]
  | .faultCmdOverrun b => [b]
  | .faultImageOob => [channelByte .chA]
  | .fgSend => []
  | .decideBoot => []
  | .arm => []
  | .start => []
  | .waitRun => []
  | .waitIdle => []
  | .dSend => []
  | .timerFire => []
  | .timerConfigure _ => []
  | .timerArmChannel _ _ _ => []
  | .timerEnable => []
  | .timerDisable => []
  | .dispatch _ => []
  | .faultFraming => []
  | .faultFifo => []

/-! The table's words. -/

/-- The `n` bytes of a table number whose first byte is the most significant, as the table's rows of more than
one byte number them ("CMD[0] first (most significant in match)"). -/
def bytesOfTableNumber : Nat → Nat → List Byte
  | 0, _ => []
  | n + 1, w => BitVec.ofNat 8 (w / 2 ^ (8 * n)) :: bytesOfTableNumber n w

/-- The operation, where the bytes are exactly one unit. -/
def wholeUnit : Decoded → Option Instr
  | .ok i [] => some i
  | .ok _ (_ :: _) => none
  | .reject _ => none

/-- The operation read from a table word on its own. The table gives one word to several formats (the byte 0x00 is
EVT_A, FAULT_IMAGE_OOB, LINE_APPEND, DATA_BYTE …), and the state's selector tells them apart; with no state, a
one-byte word below 4 is read as a compare event of a running serializer, any other one-byte word as a byte in
LineDelimited mode, and a longer word as a completed line. A row with no word (nbits = 0) is read as none. -/
def decodeTableWord (nbits w : Nat) : Option Instr :=
  if nbits = 0 then none
  else if nbits ≤ 8 then
    wholeUnit (decode (if w < 4 then .event true true else .lineByte true) [BitVec.ofNat 8 w])
  else wholeUnit (decode .lineDone (bytesOfTableNumber ((nbits + 7) / 8) w))

/-! Decoding of each constructor by a word written out from the spec's encoding of it. -/

theorem decode_word_line_append : decode (.lineByte true) [0b01010011] = .ok (.lineAppend 0x53) [] := by decide
theorem decode_word_line_end : decode (.lineByte true) [0b00001010] = .ok .lineEnd [] := by decide
theorem decode_word_cmd_transfer :
    decode .lineDone [0x54, 0x52, 0x41, 0x4E, 0x53, 0x46, 0x45, 0x52, 0x0A] = .ok .cmdTransfer [] := by decide
theorem decode_word_cmd_boot3wb :
    decode .lineDone [0x42, 0x4F, 0x4F, 0x54, 0x33, 0x57, 0x42, 0x0A] = .ok .cmdBoot3wb [] := by decide
theorem decode_word_cmd_other :
    decode .lineDone [0x48, 0x45, 0x4C, 0x4C, 0x4F, 0x0A, 0x42]
      = .ok (.cmdOther [0x48, 0x45, 0x4C, 0x4C, 0x4F, 0x0A]) [0x42] := by decide
theorem decode_word_data_byte : decode (.rawByte false) [0b00001010] = .ok (.dataByte 0x0A) [] := by decide
theorem decode_word_data_last : decode (.rawByte true) [0b11111111] = .ok (.dataLast 0xFF) [] := by decide
theorem decode_word_fg_send : decode (.control .fgSend) [] = .ok .fgSend [] := by decide
theorem decode_word_decide : decode (.control .decideBoot) [] = .ok .decideBoot [] := by decide
theorem decode_word_arm : decode (.control .arm) [] = .ok .arm [] := by decide
theorem decode_word_start : decode (.control .start) [] = .ok .start [] := by decide
theorem decode_word_wait_run : decode (.control .waitRun) [] = .ok .waitRun [] := by decide
theorem decode_word_wait_idle : decode (.control .waitIdle) [] = .ok .waitIdle [] := by decide
theorem decode_word_evt_a : decode (.event true true) [0b00] = .ok .evtA [] := by decide
theorem decode_word_evt_b : decode (.event true true) [0b01] = .ok .evtB [] := by decide
theorem decode_word_evt_c : decode (.event true true) [0b10] = .ok .evtC [] := by decide
theorem decode_word_evt_d : decode (.event true true) [0b11] = .ok .evtD [] := by decide
theorem decode_word_d_send : decode (.control .dSend) [] = .ok .dSend [] := by decide
theorem decode_word_evt_ignored : decode (.event false true) [0b10] = .ok (.evtIgnored .chC) [] := by decide
theorem decode_word_set_line : decode .gpio [0b101] = .ok (.setLine .clock .high) [] := by decide
theorem decode_word_timer_fire : decode (.control .timerFire) [] = .ok .timerFire [] := by decide
theorem decode_word_timer_configure :
    decode (.control (.timerConfigure 40)) [] = .ok (.timerConfigure 40) [] := by decide
theorem decode_word_timer_arm_channel :
    decode (.control (.timerArmChannel .chD 40 true)) [] = .ok (.timerArmChannel .chD 40 true) [] := by decide
theorem decode_word_timer_enable : decode (.control .timerEnable) [] = .ok .timerEnable [] := by decide
theorem decode_word_timer_disable : decode (.control .timerDisable) [] = .ok .timerDisable [] := by decide
theorem decode_word_dispatch : decode (.control (.dispatch .chB)) [] = .ok (.dispatch .chB) [] := by decide
theorem decode_word_fault_framing : decode (.transport .framing) [] = .ok .faultFraming [] := by decide
theorem decode_word_fault_rx_overrun :
    decode (.transport .rxOverrun) [0x58] = .ok (.faultRxOverrun 0x58) [] := by decide
theorem decode_word_fault_fifo : decode (.transport .fifo) [] = .ok .faultFifo [] := by decide
theorem decode_word_fault_cmd_overrun :
    decode (.lineByte false) [0b00001010] = .ok (.faultCmdOverrun 0x0A) [] := by decide
theorem decode_word_fault_image_oob : decode (.event true false) [0b00] = .ok .faultImageOob [] := by decide

end Sys2Proof
end

