-- ==== Sys2Proof/Machine/State.lean ====
section
/-! DEFINITION. The state of the block (R20 to R46) as plain data, the state after reset (R250, R251), and the ways a
step can stop. -/

namespace Sys2Proof.Machine

/-- SEQ, the foreground phase (R22). -/
inductive Seq where
  | rxCmd1
  | rxData
  | rxCmd2
  | deciding
  | doArm
  | doStart
  | waitRun
  | waitIdle
  | faulted
deriving DecidableEq, Repr, Inhabited

/-- SEQ's value (R22). -/
def Seq.code : Seq → BitVec 4
  | .rxCmd1 => 0
  | .rxData => 1
  | .rxCmd2 => 2
  | .deciding => 3
  | .doArm => 4
  | .doStart => 5
  | .waitRun => 6
  | .waitIdle => 7
  | .faulted => 8

/-- SER_STATE (R27). -/
inductive SerState where
  | idle
  | armed
  | running
  | done
deriving DecidableEq, Repr, Inhabited

/-- SER_STATE's value (R27). -/
def SerState.code : SerState → BitVec 2
  | .idle => 0
  | .armed => 1
  | .running => 2
  | .done => 3

/-- The codes FAULT holds (R41, R200). -/
inductive FaultCode where
  | noFault
  | xportFraming
  | xportOverrun
  | xportFifo
  | cmdOverrun
  | imageOob
deriving DecidableEq, Repr, Inhabited

/-- FAULT's value (R200). -/
def FaultCode.code : FaultCode → BitVec 3
  | .noFault => 0
  | .xportFraming => 1
  | .xportOverrun => 2
  | .xportFifo => 3
  | .cmdOverrun => 4
  | .imageOob => 5

/-- A message the foreground sends (R23, R86). -/
inductive Msg where
  | transferStarted
  | bootloadStarted
  | dataAck
deriving DecidableEq, Repr, Inhabited

/-- A message in progress and the index of its next byte (R23). -/
structure Sending where
  msg : Msg
  k : Nat
deriving DecidableEq, Repr, Inhabited

/-- One entry of the observation history (R46). -/
inductive Obs where
  /-- A SetLine write, and the event that made it. -/
  | lineWrite (id : LineId) (level : Level) (by_ : Option Chan)
  /-- A byte the transport delivered to the host. -/
  | delivered (b : Byte)
  /-- A byte the host pushed. -/
  | pushed (b : Byte)
deriving DecidableEq, Repr, Inhabited

/-- A byte space (IMAGE or CMD): the bytes that were written, by strictly rising index. An index with no entry
holds no written byte. -/
abbrev Memory := List Host.Cell

/-- The state of the block. -/
structure State where
  /-- The parameters of the step (R45). No rule writes them. -/
  cfg : Params
  /-- SEQ (R22), the program counter's analogue. -/
  seq : Seq
  /-- FG_TX (R23). -/
  fgTx : Option Sending
  /-- BOOT_FLAG (R24). -/
  bootFlag : Bool
  /-- CMD_LEN (R25). -/
  cmdLen : BitVec 10
  /-- DATA_CNT (R26). -/
  dataCnt : BitVec 17
  /-- SER_STATE (R27). -/
  serState : SerState
  /-- BYTE_INDEX (R28). -/
  byteIndex : BitVec 17
  /-- BIT_INDEX (R29). -/
  bitIndex : BitVec 3
  /-- TMR_EN (R31). -/
  tmrEn : Bool
  /-- TMR_CC (R32), each TIMER_BITS wide. -/
  tmrCC : PerChan Nat
  /-- TMR_CLR (R33). -/
  tmrClr : PerChan Bool
  /-- TMR_PERIOD (R34), TIMER_BITS wide. -/
  tmrPeriod : Nat
  /-- TMR_NEXT (R35). -/
  tmrNext : Chan
  /-- TMR_PEND (R36). -/
  tmrPend : PerChan Bool
  /-- TMR_COUNT (R37), TIMER_BITS wide. -/
  tmrCount : Nat
  /-- HANDLER (R38): the index k of D_SEND(k), 0 to 17. -/
  handler : Option (Fin 18)
  /-- LINE (R39). -/
  line : Lines
  /-- FAULT (R41). -/
  fault : FaultCode
  /-- RXQ (R42), the head first. -/
  rxq : List Byte
  /-- TXQ (R42), the head first. -/
  txq : List Byte
  /-- IMAGE (R43): the bytes written since reset. -/
  image : Memory
  /-- CMD (R44): the bytes written since reset. -/
  cmd : Memory
  /-- The observation history (R46), newest entry first. -/
  history : List Obs
  /-- The model's own: the moves that come next, first first. -/
  agenda : List Move
  /-- The model's own: how many moves were drawn freely. -/
  draws : Nat
  /-- The model's own: how many resets there were; it numbers the free contents of IMAGE and CMD. -/
  resets : Nat
deriving DecidableEq, Repr

/-- Why a step stops with no next state. The block's own faults (R200) are next states and stand in State.fault. -/
inductive Fault where
  /-- An operation was performed in a state in which its rule does not enable it (R18: "Enabled when"), so the agent has
  no such step. Raised by the meanings, when exec is called on such a state from outside step. Safe. -/
  | notEnabled
  /-- The same, because FAULT ≠ NONE: no agent has an enabled step (R204, R205). Raised by the meanings. Safe. -/
  | halted
deriving DecidableEq, Repr

/-- Why a step is refused. -/
inductive Refusal where
  /-- An operation that has no meaning yet. No arm of exec answers with it. Safe. -/
  | notModelled (mnemonic : String)
  /-- CTRL_OUT_OF_ORDER (R138): ARM or START outside the sequence. Raised by execArm and execStart. Safe. -/
  | ctrlOutOfOrder
  /-- TERMINAL_COUNT outside 1..IMAGE_SIZE (R8, D23). Raised by step. Safe. -/
  | illegalConfiguration
  /-- The bytes of the selected unit encode no operation. Raised by step; a fetched unit never does so. Safe. -/
  | undecodable (r : Reject)
deriving DecidableEq, Repr

/-- The level that asserts a line (R11, R17, R88). -/
def assertedLevel (p : Platform) : LineId → Level
  | .data => .high
  | .latch => p.latchActive
  | .clock => .low
  | .finish => p.finishActive

/-- Every line at its deasserted level (R39). -/
def deassertedLines (p : Platform) : Lines where
  data := (assertedLevel p .data).flip
  latch := (assertedLevel p .latch).flip
  clock := (assertedLevel p .clock).flip
  finish := (assertedLevel p .finish).flip

/-- The state after a reset under the parameters `cfg` (R250, R251). -/
def State.resetWith (cfg : Params) : State where
  cfg := cfg
  seq := .rxCmd1
  fgTx := none
  bootFlag := false
  cmdLen := 0
  dataCnt := 0
  serState := .idle
  byteIndex := 0
  bitIndex := 0
  tmrEn := false
  tmrCC := ⟨0, 0, 0, 0⟩
  tmrClr := ⟨false, false, false, false⟩
  tmrPeriod := 0
  tmrNext := .chA
  tmrPend := ⟨false, false, false, false⟩
  tmrCount := 0
  handler := none
  line := deassertedLines cfg.platform
  fault := .noFault
  rxq := []
  txq := []
  image := []
  cmd := []
  history := []
  agenda := []
  draws := 0
  resets := 0

/-- The state right after reset (R250, R251): TERMINAL_COUNT is 64 (R8), the timer moves by the abstract rule (R208),
and the open parameters are free. -/
def State.reset : State :=
  State.resetWith { terminalCount := 64, tickLevel := false, platform := Config.platform }

end Sys2Proof.Machine
end

