-- ==== Sys2Proof/Machine/Ops.lean ====
section
/-! DEFINITION. The named operations over memory, the queues, the lines and the timer registers (R16), raising a fault
(R204), and the enabling conditions that several rules share. -/

namespace Sys2Proof.Machine

/-- What an operation answers. -/
abbrev Out := Host.Outcome State Fault Refusal

/-! Byte spaces. -/

/-- The byte written at index `a`, if one was written since reset. -/
def Memory.read : Memory → Nat → Option Byte
  | [], _ => none
  | (k, x) :: rest, a => if a = k then some x else Memory.read rest a

/-- The space with `v` at index `a`. -/
def Memory.write : Memory → Nat → Byte → Memory
  | [], a, v => [(a, v)]
  | (k, x) :: rest, a, v =>
    if a < k then (a, v) :: (k, x) :: rest
    else if a = k then (a, v) :: rest
    else (k, x) :: Memory.write rest a v

/-- Every index of the space is at least `lo`, and the indices rise strictly. -/
def Memory.risesFrom : Nat → Memory → Bool
  | _, [] => true
  | lo, (k, _) :: rest => decide (lo ≤ k) && Memory.risesFrom (k + 1) rest

/-- The canonical form: strictly rising indices. An unlisted index holds no written byte, so every entry differs from
what an unlisted index reads as. -/
def Memory.wf (m : Memory) : Bool := Memory.risesFrom 0 m

/-- Every index of the space is below `size` (R69). -/
def Memory.below (size : Nat) (m : Memory) : Bool := m.all fun c => decide (c.1 < size)

/-- `MemRead(IMAGE, i, 1)` (R16). A byte nothing has written since reset is a free value (R43). -/
def State.readImage (s : State) (i : Nat) : Byte :=
  match Memory.read s.image i with
  | some b => b
  | none => Config.freeImageByte s.resets i

/-- The byte at index `i` of CMD (R44). A byte nothing has written since reset is a free value. -/
def State.readCmd (s : State) (i : Nat) : Byte :=
  match Memory.read s.cmd i with
  | some b => b
  | none => Config.freeCmdByte s.resets i

/-- `MemWrite(IMAGE, i, 1, v)` (R16). -/
def State.writeImage (s : State) (i : Nat) (v : Byte) : State :=
  { s with image := Memory.write s.image i v }

/-- `MemWrite(CMD, i, 1, v)` (R16). -/
def State.writeCmd (s : State) (i : Nat) (v : Byte) : State :=
  { s with cmd := Memory.write s.cmd i v }

/-! The transport's queues. -/

/-- `RxByte()`'s effect on RXQ: its head is removed (R67). -/
def State.popRx (s : State) : State := { s with rxq := s.rxq.tail }

/-- `TxByte(b)`'s effect on TXQ (R67). -/
def State.txByte (s : State) (b : Byte) : State := { s with txq := s.txq ++ [b] }

/-- TXQ has room for a byte (R109, R156). -/
abbrev State.txRoom (s : State) : Prop := s.txq.length < s.cfg.platform.txCap

/-- RXQ has room for a byte (R224). -/
abbrev State.rxRoom (s : State) : Prop := s.rxq.length < s.cfg.platform.rxCap

/-! Messages. -/

/-- The bytes of a foreground message, first character first (R86). -/
def Msg.bytes : Msg → List Byte
  | .transferStarted =>
    [0x74, 0x72, 0x61, 0x6E, 0x73, 0x66, 0x65, 0x72, 0x5F, 0x73, 0x74, 0x61, 0x72, 0x74, 0x65, 0x64, 0x0A]
  | .bootloadStarted =>
    [0x62, 0x6F, 0x6F, 0x74, 0x6C, 0x6F, 0x61, 0x64, 0x5F, 0x73, 0x74, 0x61, 0x72, 0x74, 0x65, 0x64, 0x0A]
  | .dataAck => [0x64, 0x61, 0x74, 0x61, 0x5F, 0x61, 0x63, 0x6B, 0x0A]

/-- "bootload_success\n" (R86), which the interrupt context sends. -/
def bootloadSuccess : List Byte :=
  [0x62, 0x6F, 0x6F, 0x74, 0x6C, 0x6F, 0x61, 0x64, 0x5F, 0x73, 0x75, 0x63, 0x63, 0x65, 0x73, 0x73, 0x0A]

/-- FG_TX takes up a message at its first byte. -/
def State.beginSend (s : State) (m : Msg) : State := { s with fgTx := some ⟨m, 0⟩ }

/-! Lines. -/

/-- `lvl(line, ASSERTED)` (R17). -/
def State.asserted (s : State) (id : LineId) : Level := assertedLevel s.cfg.platform id

/-- `lvl(line, DEASSERTED)` (R17). -/
def State.deasserted (s : State) (id : LineId) : Level := (s.asserted id).flip

/-- `SetLine(id, level)` made by the event `ev` (R164). The pin `PIN_MAP[id]` carries the line's level. -/
def State.setLine (s : State) (id : LineId) (level : Level) (ev : Option Chan) : State :=
  { s with line := s.line.set id level, history := .lineWrite id level ev :: s.history }

/-! The timer's registers. -/

/-- What a register of `bits` bits holds after `v` is written. DESIGN CHOICE (log entry 9): a value that does not fit
leaves a free value of `bits` bits, which depends on `v` and `bits` alone, so that equal too-wide writes to TMR_PERIOD and
to any TMR_CC agree, each time. -/
def ticksHeld (bits v : Nat) : Nat := if v < 2 ^ bits then v else Config.freeTicks v % 2 ^ bits

/-- What a register of TIMER_BITS bits (R10) holds after `v` is written. -/
def State.timerValue (s : State) (v : Nat) : Nat := ticksHeld s.cfg.platform.timerBits v

/-- `TimerConfigure(p)` (R209). -/
def State.timerConfigure (s : State) (p : Nat) : State := { s with tmrPeriod := s.timerValue p }

/-- `TimerArmChannel(ch, off, clr)` (R210). -/
def State.timerArmChannel (s : State) (ch : Chan) (off : Nat) (clr : Bool) : State :=
  { s with tmrCC := s.tmrCC.set ch (s.timerValue off), tmrClr := s.tmrClr.set ch clr }

/-- `TimerEnable()` (R211). -/
def State.timerEnable (s : State) : State := { s with tmrEn := true }

/-- `TimerDisable()` (R212). -/
def State.timerDisable (s : State) : State := { s with tmrEn := false }

/-- TMR_PEND[ch] becomes `x`. -/
def State.setPend (s : State) (ch : Chan) (x : Bool) : State := { s with tmrPend := s.tmrPend.set ch x }

/-- The channel after `ch` in the cyclic order A, B, C, D (R35). -/
def nextChan : Chan → Chan
  | .chA => .chB
  | .chB => .chC
  | .chC => .chD
  | .chD => .chA

/-! The foreground's phases. -/

/-- The phases of LineDelimited mode (R83). -/
def Seq.isLine : Seq → Bool
  | .rxCmd1 | .rxCmd2 => true
  | .rxData | .deciding | .doArm | .doStart | .waitRun | .waitIdle | .faulted => false

/-- The reception phases (R100). -/
def Seq.isReception : Seq → Bool
  | .rxCmd1 | .rxData | .rxCmd2 => true
  | .deciding | .doArm | .doStart | .waitRun | .waitIdle | .faulted => false

/-- `next(SEQ)` (R131), applied in reception phases only. -/
def nextPhase : Seq → Seq
  | .rxCmd1 => .rxData
  | .rxData => .rxCmd2
  | .rxCmd2 => .deciding
  | .deciding => .deciding
  | .doArm => .doArm
  | .doStart => .doStart
  | .waitRun => .waitRun
  | .waitIdle => .waitIdle
  | .faulted => .faulted

/-- A reception step returns (R100, R131). -/
def State.returnReceive (s : State) : State := { s with seq := nextPhase s.seq }

/-! Enabling. -/

/-- No fault, and no handler in progress: what every foreground step and every handler entry requires (R205, R217). -/
abbrev State.free (s : State) : Prop := s.fault = .noFault ∧ s.handler = none

/-- A byte step of LineDelimited mode is enabled, its byte apart (R101, R102, R111). -/
abbrev State.lineReady (s : State) : Prop := s.free ∧ s.seq.isLine = true ∧ s.fgTx = none

/-- A byte step of FixedLength mode is enabled, its byte apart (R107, R108). -/
abbrev State.rawReady (s : State) : Prop := s.free ∧ s.seq = .rxData ∧ s.fgTx = none

/-- The outcome of an operation that its rule does not enable. -/
def State.stop (s : State) : Out := .fault (if s.fault = .noFault then .notEnabled else .halted)

/-! Faults. -/

/-- `raise Fault(code)` (R204): the block's one exception entry. -/
def State.raiseFault (s : State) (code : FaultCode) : State :=
  { s with fault := code, seq := .faulted, fgTx := none, handler := none, tmrEn := false }

/-- A handler returns (R219): nothing is restored, since entry saved nothing. -/
def State.handlerReturn (s : State) : State := { s with handler := none }

/-! Observation. -/

/-- The level on physical pin `pin` (R13, R164): that of the line PIN_MAP places there, if one is. -/
def State.pinLevel (s : State) (pin : Nat) : Option Level :=
  if s.cfg.platform.pinMap.data = pin then some s.line.data
  else if s.cfg.platform.pinMap.latch = pin then some s.line.latch
  else if s.cfg.platform.pinMap.clock = pin then some s.line.clock
  else if s.cfg.platform.pinMap.finish = pin then some s.line.finish
  else none

end Sys2Proof.Machine
end

