-- ==== Sys2Proof/Machine/Operands.lean ====
section
/-! DEFINITION. The operands that rules assemble from state (R89), and the cursor's advance (R152). -/

namespace Sys2Proof.Machine

/-- EVT_A's bit: bit BIT_INDEX of the current image byte (R89, R152). -/
def State.evtBit (s : State) : Byte :=
  (s.readImage s.byteIndex.toNat >>> s.bitIndex.toNat) &&& 1

/-- DATA_LEVEL(bit) (R89, R159): the data line carries the bit inverted. -/
def dataLevel (bit : Byte) : Level := if bit = 0 then .high else .low

/-- EVT_B's condition (R89, R153): the cursor is at the start of a 32-bit word. -/
abbrev State.atBoundary (s : State) : Prop := s.bitIndex = 0 ∧ s.byteIndex.toNat % 4 = 0

/-- EVT_D's condition (R89, R160): equality with the terminal count. -/
abbrev State.atTerminal (s : State) : Prop := s.byteIndex.toNat = s.cfg.terminalCount

/-- The first `n` bytes of CMD, the line operand (R89). -/
def State.lineBytes (s : State) (n : Nat) : List Byte := (List.range n).map s.readCmd

/-- The cursor moves on by one bit, least-significant bit first, bytes in ascending index (R61, R152). -/
def State.advanceCursor (s : State) : State :=
  if s.bitIndex = 7 then { s with bitIndex := 0, byteIndex := s.byteIndex + 1 }
  else { s with bitIndex := s.bitIndex + 1 }

end Sys2Proof.Machine
end

