-- ==== Sys2Proof/Machine/BusSerializer.lean ====
section
/-! DEFINITION. The BusSerializer (R150 to R166): the four events, the terminal completion sequence, ignored events, the
line write, and DISPATCH (R216), which runs the handler body that the channel selects (R151). -/

namespace Sys2Proof.Machine

/-- The body of EVT_A (R152): the bit goes out inverted, then the cursor moves on. -/
def State.evtABody (s : State) : State :=
  if imageSize ≤ s.byteIndex.toNat then s.raiseFault .imageOob
  else (s.setLine .data (dataLevel s.evtBit) (some .chA)).advanceCursor

/-- The body of EVT_B (R153). -/
def State.evtBBody (s : State) : State :=
  if s.atBoundary then s.setLine .latch (s.asserted .latch) (some .chB)
  else s.setLine .latch (s.deasserted .latch) (some .chB)

/-- The body of EVT_C (R154). -/
def State.evtCBody (s : State) : State := s.setLine .clock (s.asserted .clock) (some .chC)

/-- The body of EVT_D (R155): in the terminal branch the handler does not return yet. -/
def State.evtDBody (s : State) : State :=
  let s1 := s.setLine .clock (s.deasserted .clock) (some .chD)
  if s1.atTerminal then { s1.setLine .finish (s1.asserted .finish) (some .chD) with handler := some 0 } else s1

/-- The one handler, a function of the channel and SER_STATE (R151, R157). -/
def State.runHandler (s : State) (ch : Chan) : State :=
  match s.serState, ch with
  | .running, .chA => s.evtABody
  | .running, .chB => s.evtBBody
  | .running, .chC => s.evtCBody
  | .running, .chD => s.evtDBody
  | .idle, _ => s
  | .armed, _ => s
  | .done, _ => s

/-- EVT_A (R152), as dispatched while RUNNING. -/
def execEvtA (s : State) : Out := if s.free ∧ s.serState = .running then .next s.evtABody else s.stop

/-- EVT_B (R153), as dispatched while RUNNING. -/
def execEvtB (s : State) : Out := if s.free ∧ s.serState = .running then .next s.evtBBody else s.stop

/-- EVT_C (R154), as dispatched while RUNNING. -/
def execEvtC (s : State) : Out := if s.free ∧ s.serState = .running then .next s.evtCBody else s.stop

/-- EVT_D (R155), as dispatched while RUNNING. -/
def execEvtD (s : State) : Out := if s.free ∧ s.serState = .running then .next s.evtDBody else s.stop

/-- FAULT_IMAGE_OOB (R203): EVT_A with BYTE_INDEX outside IMAGE, before any line is written. -/
def execFaultImageOob (s : State) : Out :=
  if s.free ∧ s.serState = .running ∧ imageSize ≤ s.byteIndex.toNat then .next (s.raiseFault .imageOob) else s.stop

/-- EVT_IGNORED (R157): no line write, no cursor change, no message. -/
def execEvtIgnored (_ch : Chan) (s : State) : Out :=
  if s.free ∧ s.serState ≠ .running then .next s else s.stop

/-- DISPATCH (R216): the channel's pending bit is cleared and its handler runs, in one step. -/
def execDispatch (ch : Chan) (s : State) : Out :=
  if s.free ∧ s.tmrPend.get ch = true then .next ((s.setPend ch false).runHandler ch) else s.stop

/-- D_SEND (R156): one byte of the completion message, or the end of the sequence. While TXQ is full the interrupt
context waits and nothing changes. -/
def execDSend (s : State) : Out :=
  match s.handler with
  | none => s.stop
  | some k =>
    if s.fault = .noFault then
      match bootloadSuccess[k.val]? with
      | some b => if s.txRoom then .next { s.txByte b with handler := some (k + 1) } else .next s
      | none => .next { s.timerDisable with serState := .done }.handlerReturn
    else s.stop

/-- SET_LINE (R164), the primitive itself: no event is recorded as its maker. -/
def execSetLine (id : LineId) (level : Level) (s : State) : Out := .next (s.setLine id level none)

end Sys2Proof.Machine
end

