-- ==== Sys2Proof/Machine/Flags.lean ====
section
/-! DEFINITION. The block's one flag, BOOT_FLAG (R24): what sets it, and the phase that its one reader chooses. -/

namespace Sys2Proof.Machine

/-- BOOT_FLAG becomes 1 (R24, R104). No operation writes 0. -/
def State.setBootFlag (s : State) : State := { s with bootFlag := true }

/-- The phase DECIDE goes to (R132). -/
def State.decidedPhase (s : State) : Seq := if s.bootFlag then .doArm else .waitIdle

end Sys2Proof.Machine
end

