-- ==== Sys2Proof/Machine/FrameReceiver.lean ====
section
/-! DEFINITION. The FrameReceiver's operations (R100 to R114): receiving a line, receiving the image, sending a reply,
and the command overrun. -/

namespace Sys2Proof.Machine

/-- LINE_APPEND (R101). -/
def execLineAppend (b : Byte) (s : State) : Out :=
  if s.lineReady ∧ s.rxq.head? = some b ∧ b ≠ newline ∧ s.cmdLen.toNat < cmdCap then
    .next { s.popRx.writeCmd s.cmdLen.toNat b with cmdLen := s.cmdLen + 1 }
  else s.stop

/-- The effect of the line "TRANSFER\n" (R103). -/
def State.cmdTransfer (s : State) : State := s.beginSend .transferStarted

/-- The effect of the line "BOOT3WB\n" (R104). -/
def State.cmdBoot3wb (s : State) : State := s.setBootFlag.beginSend .bootloadStarted

/-- The effect of any other line (R105). -/
def State.cmdOther (s : State) : State := s.returnReceive

/-- The command that a completed line of this kind carries out (R102). -/
def State.command (s : State) : LineKind → State
  | .transfer => s.cmdTransfer
  | .boot3wb => s.cmdBoot3wb
  | .other => s.cmdOther

/-- The newline's byte step (R102, R114): it is stored as part of the line, and the read cursor is reset. -/
def State.storeNewline (s : State) : State :=
  { s.popRx.writeCmd s.cmdLen.toNat newline with cmdLen := 0 }

/-- LINE_END (R102): the newline's byte step, and the command of the line it completes, in one step. -/
def execLineEnd (s : State) : Out :=
  if s.lineReady ∧ s.rxq.head? = some newline ∧ s.cmdLen.toNat < cmdCap then
    .next (s.storeNewline.command (classify (s.storeNewline.lineBytes (s.cmdLen.toNat + 1))))
  else s.stop

/-- CMD_TRANSFER (R103). -/
def execCmdTransfer (s : State) : Out := if s.lineReady then .next s.cmdTransfer else s.stop

/-- CMD_BOOT3WB (R104). -/
def execCmdBoot3wb (s : State) : Out := if s.lineReady then .next s.cmdBoot3wb else s.stop

/-- CMD_OTHER (R105): what the line says has no effect. -/
def execCmdOther (_line : List Byte) (s : State) : Out := if s.lineReady then .next s.cmdOther else s.stop

/-- DATA_BYTE (R107). -/
def execDataByte (b : Byte) (s : State) : Out :=
  if s.rawReady ∧ s.rxq.head? = some b ∧ s.dataCnt.toNat < imageSize - 1 then
    .next { s.popRx.writeImage s.dataCnt.toNat b with dataCnt := s.dataCnt + 1 }
  else s.stop

/-- DATA_LAST (R108). -/
def execDataLast (b : Byte) (s : State) : Out :=
  if s.rawReady ∧ s.rxq.head? = some b ∧ s.dataCnt.toNat = imageSize - 1 then
    .next ({ s.popRx.writeImage (imageSize - 1) b with dataCnt := BitVec.ofNat 17 imageSize }.beginSend .dataAck)
  else s.stop

/-- The bookkeeping after byte `k` of message `m` was handed over (R109): the next byte, or the receive's return. -/
def State.sentByte (s : State) (m : Msg) (k : Nat) : State :=
  if k + 1 = m.bytes.length then { s with fgTx := none }.returnReceive
  else { s with fgTx := some ⟨m, k + 1⟩ }

/-- FG_SEND (R109). While TXQ is full the foreground waits and nothing changes. -/
def execFgSend (s : State) : Out :=
  match s.fgTx with
  | none => s.stop
  | some ⟨m, k⟩ =>
    if s.free ∧ s.seq.isReception = true then
      match m.bytes[k]? with
      | none => s.stop
      | some b => if s.txRoom then .next ((s.txByte b).sentByte m k) else .next s
    else s.stop

/-- FAULT_CMD_OVERRUN (R111): the byte is popped and CMD is not written. -/
def execFaultCmdOverrun (b : Byte) (s : State) : Out :=
  if s.lineReady ∧ s.rxq.head? = some b ∧ s.cmdLen.toNat = cmdCap then
    .next (s.popRx.raiseFault .cmdOverrun)
  else s.stop

end Sys2Proof.Machine
end

