-- ==== Sys2Proof/Machine/Sequencer.lean ====
section
/-! DEFINITION. The foreground sequencer's operations (R130 to R140). -/

namespace Sys2Proof.Machine

/-- DECIDE (R132). -/
def execDecideBoot (s : State) : Out :=
  if s.free ∧ s.seq = .deciding then .next { s with seq := s.decidedPhase } else s.stop

/-- The timer's part of `arm()` (R133): the period and the four channels, channel D with its final reset. -/
def State.armTimer (s : State) : State :=
  let p := s.cfg.platform
  ((((s.timerConfigure p.t4).timerArmChannel .chA p.t1 false).timerArmChannel .chB p.t2 false).timerArmChannel
    .chC p.t3 false).timerArmChannel .chD p.t4 true

/-- ARM (R133), refused outside the sequence (R138). -/
def execArm (s : State) : Out :=
  if s.seq = .doArm ∧ s.serState = .idle then
    if s.free then
      .next { s.armTimer with tmrNext := .chA, byteIndex := 0, bitIndex := 0, serState := .armed, seq := .doStart }
    else s.stop
  else .refused .ctrlOutOfOrder

/-- START (R134), refused outside the sequence (R138). -/
def execStart (s : State) : Out :=
  if s.seq = .doStart ∧ s.serState = .armed then
    if s.free then .next { s.timerEnable with serState := .running, seq := .waitRun } else s.stop
  else .refused .ctrlOutOfOrder

/-- WAIT_RUN (R135): the wait does no work and never ends. -/
def execWaitRun (s : State) : Out := if s.free ∧ s.seq = .waitRun then .next s else s.stop

/-- WAIT_IDLE (R136): the wait does no work and never ends. -/
def execWaitIdle (s : State) : Out := if s.free ∧ s.seq = .waitIdle then .next s else s.stop

end Sys2Proof.Machine
end

