-- ==== Sys2Proof/Machine/Timer.lean ====
section
/-! DEFINITION. The timer (R208 to R214): the abstract firing rule, the four interface operations, and the tick. -/

namespace Sys2Proof.Machine

/-- The abstract firing (R208): a firing onto a pending channel is absorbed. -/
def State.fire (s : State) : State := { s.setPend s.tmrNext true with tmrNext := nextChan s.tmrNext }

/-- TIMER_FIRE (R208). -/
def execTimerFire (s : State) : Out := if s.tmrEn = true ∧ s.fault = .noFault then .next s.fire else s.stop

/-- TIMER_CONFIGURE (R209). -/
def execTimerConfigure (p : Nat) (s : State) : Out := .next (s.timerConfigure p)

/-- TIMER_ARM_CHANNEL (R210). -/
def execTimerArmChannel (ch : Chan) (off : Nat) (clr : Bool) (s : State) : Out :=
  .next (s.timerArmChannel ch off clr)

/-- TIMER_ENABLE (R211). -/
def execTimerEnable (s : State) : Out := .next s.timerEnable

/-- TIMER_DISABLE (R212). -/
def execTimerDisable (s : State) : Out := .next s.timerDisable

/-- One channel's part of a tick (R214): the compare, and the counter's reset. -/
def State.tickChannel (s : State) (ch : Chan) : State :=
  if s.tmrCount = s.tmrCC.get ch then
    let s1 := s.setPend ch true
    if s.tmrClr.get ch = true then { s1 with tmrCount := 0 } else s1
  else s

/-- One tick of the tick-level refinement (R214). -/
def State.tick (s : State) : State :=
  let s1 := { s with tmrCount := (s.tmrCount + 1) % 2 ^ s.cfg.platform.timerBits }
  (((s1.tickChannel .chA).tickChannel .chB).tickChannel .chC).tickChannel .chD

end Sys2Proof.Machine
end

