-- ==== Sys2Proof/Machine/Transport.lean ====
section
/-! DEFINITION. The transport device (R201, R224) and the platform's reset after a fault (R204, R250). -/

namespace Sys2Proof.Machine

/-- FAULT_FRAMING (R201). -/
def execFaultFraming (s : State) : Out :=
  if s.fault = .noFault then .next (s.raiseFault .xportFraming) else s.stop

/-- FAULT_FIFO (R201). -/
def execFaultFifo (s : State) : Out :=
  if s.fault = .noFault then .next (s.raiseFault .xportFifo) else s.stop

/-- The host's push enters the history (R46). -/
def State.recordPush (s : State) (b : Byte) : State := { s with history := .pushed b :: s.history }

/-- FAULT_RX_OVERRUN (R201): the host pushes `b` while RXQ is full, and the byte is lost. -/
def execFaultRxOverrun (b : Byte) (s : State) : Out :=
  if s.fault = .noFault ∧ ¬ s.rxRoom then .next ((s.recordPush b).raiseFault .xportOverrun) else s.stop

/-- HOST_PUSH(b) with room in RXQ (R224). -/
def State.hostPush (s : State) (b : Byte) : State := { s.recordPush b with rxq := s.rxq ++ [b] }

/-- HOST_PULL of the byte `b` at TXQ's head (R224). -/
def State.hostPull (s : State) (b : Byte) : State :=
  { s with txq := s.txq.tail, history := .delivered b :: s.history }

/-- The platform resets the block (R204, R250). The parameters, the moves to come and the history go on; IMAGE and CMD
have fresh free contents. -/
def State.platformReset (s : State) : State :=
  { State.resetWith s.cfg with
      history := s.history, agenda := s.agenda, draws := s.draws, resets := s.resets + 1 }

end Sys2Proof.Machine
end

