-- ==== Sys2Proof/Machine/Dispatch.lean ====
section
/-! DEFINITION. The meaning of each operation of the table, one arm for each constructor of Instr. -/

namespace Sys2Proof.Machine

def exec (i : Instr) (s : State) : Host.Outcome State Fault Refusal :=
  match i with
  | .lineAppend b => Sys2Proof.Machine.execLineAppend b s
  | .lineEnd => Sys2Proof.Machine.execLineEnd s
  | .cmdTransfer => Sys2Proof.Machine.execCmdTransfer s
  | .cmdBoot3wb => Sys2Proof.Machine.execCmdBoot3wb s
  | .cmdOther line => Sys2Proof.Machine.execCmdOther line s
  | .dataByte b => Sys2Proof.Machine.execDataByte b s
  | .dataLast b => Sys2Proof.Machine.execDataLast b s
  | .fgSend => Sys2Proof.Machine.execFgSend s
  | .decideBoot => Sys2Proof.Machine.execDecideBoot s
  | .arm => Sys2Proof.Machine.execArm s
  | .start => Sys2Proof.Machine.execStart s
  | .waitRun => Sys2Proof.Machine.execWaitRun s
  | .waitIdle => Sys2Proof.Machine.execWaitIdle s
  | .evtA => Sys2Proof.Machine.execEvtA s
  | .evtB => Sys2Proof.Machine.execEvtB s
  | .evtC => Sys2Proof.Machine.execEvtC s
  | .evtD => Sys2Proof.Machine.execEvtD s
  | .dSend => Sys2Proof.Machine.execDSend s
  | .evtIgnored ch => Sys2Proof.Machine.execEvtIgnored ch s
  | .setLine id level => Sys2Proof.Machine.execSetLine id level s
  | .timerFire => Sys2Proof.Machine.execTimerFire s
  | .timerConfigure p => Sys2Proof.Machine.execTimerConfigure p s
  | .timerArmChannel ch off clr => Sys2Proof.Machine.execTimerArmChannel ch off clr s
  | .timerEnable => Sys2Proof.Machine.execTimerEnable s
  | .timerDisable => Sys2Proof.Machine.execTimerDisable s
  | .dispatch ch => Sys2Proof.Machine.execDispatch ch s
  | .faultFraming => Sys2Proof.Machine.execFaultFraming s
  | .faultRxOverrun b => Sys2Proof.Machine.execFaultRxOverrun b s
  | .faultFifo => Sys2Proof.Machine.execFaultFifo s
  | .faultCmdOverrun b => Sys2Proof.Machine.execFaultCmdOverrun b s
  | .faultImageOob => Sys2Proof.Machine.execFaultImageOob s

end Sys2Proof.Machine
end

