-- ==== Sys2Proof/Machine/Fetch.lean ====
section
/-! DEFINITION. Which operation comes next: the move that State.agenda (or a free value) gives, the unit that the state
selects for it (R83, R92, R217), and the placing of a table word so that the next step runs it. -/

namespace Sys2Proof.Machine

/-- The move that comes next. -/
def State.move (s : State) : Move :=
  match s.agenda with
  | m :: _ => m
  | [] => Config.freeMove s.draws

/-- The state with that move taken from the agenda, or drawn. -/
def State.afterMove (s : State) : State :=
  match s.agenda with
  | _ :: rest => { s with agenda := rest }
  | [] => { s with draws := s.draws + 1 }

/-- What a move selects. -/
inductive Fetched where
  /-- An operation of the table: its selector and the bytes of its unit. -/
  | unit (sel : Selector) (bytes : List Byte)
  /-- A step of the transport, the timer's ticks or the platform, which the table has no row for: the state after. -/
  | device (after : State)
  /-- The agent has no enabled step. -/
  | nothing
deriving DecidableEq, Repr

/-- The foreground's step (R83, R92, R109, R110): nothing while it is blocked, or while a handler or a fault holds it. -/
def fetchForeground (s : State) : Fetched :=
  if s.free then
    match s.seq with
    | .rxCmd1 | .rxCmd2 =>
      match s.fgTx, s.rxq with
      | some t, _ => if t.k < t.msg.bytes.length then .unit (.control .fgSend) [] else .nothing
      | none, [] => .nothing
      | none, b :: _ =>
        if s.cmdLen.toNat ≤ cmdCap then .unit (.lineByte (decide (s.cmdLen.toNat < cmdCap))) [b] else .nothing
    | .rxData =>
      match s.fgTx, s.rxq with
      | some t, _ => if t.k < t.msg.bytes.length then .unit (.control .fgSend) [] else .nothing
      | none, [] => .nothing
      | none, b :: _ =>
        if s.dataCnt.toNat < imageSize then .unit (.rawByte (decide (s.dataCnt.toNat = imageSize - 1))) [b]
        else .nothing
    | .deciding => .unit (.control .decideBoot) []
    | .doArm => .unit (.control .arm) []
    | .doStart => .unit (.control .start) []
    | .waitRun => .unit (.control .waitRun) []
    | .waitIdle => .unit (.control .waitIdle) []
    | .faulted => .nothing
  else .nothing

/-- The timer's step (R208, or R214 where the configuration says so). -/
def fetchTimer (s : State) : Fetched :=
  if s.tmrEn = true ∧ s.fault = .noFault then
    if s.cfg.tickLevel then .device s.tick else .unit (.control .timerFire) []
  else .nothing

/-- The interrupt context's step (R156, R216, R217). -/
def fetchHandler (ch : Chan) (s : State) : Fetched :=
  if s.fault = .noFault then
    match s.handler with
    | some _ => .unit (.control .dSend) []
    | none => if s.tmrPend.get ch = true then .unit (.control (.dispatch ch)) [] else .nothing
  else .nothing

/-- The host's push (R201, R224). -/
def fetchPush (b : Byte) (s : State) : Fetched :=
  if s.fault = .noFault then
    if s.rxRoom then .device (s.hostPush b) else .unit (.transport .rxOverrun) [b]
  else .nothing

/-- The host's pull (R204, R224), which a fault does not stop. -/
def fetchPull (s : State) : Fetched :=
  match s.txq with
  | [] => .nothing
  | b :: _ => .device (s.hostPull b)

/-- A transport condition (R201). -/
def fetchCondition (x : XportCond) (s : State) : Fetched :=
  if s.fault = .noFault then .unit (.transport x) [] else .nothing

/-- The platform's reset (R204, R250): after a fault, where the policy is RESET. -/
def fetchReset (s : State) : Fetched :=
  if s.fault ≠ .noFault ∧ s.cfg.platform.faultPolicy = .reset then .device s.platformReset else .nothing

/-- What the move `m` selects in the state `s` (R20). -/
def fetch (m : Move) (s : State) : Fetched :=
  match m with
  | .fg => fetchForeground s
  | .timer => fetchTimer s
  | .isr ch => fetchHandler ch s
  | .push b => fetchPush b s
  | .pull => fetchPull s
  | .framing => fetchCondition .framing s
  | .fifo => fetchCondition .fifo s
  | .reset => fetchReset s

/-! Placing a table word. -/

/-- The state in which the channel's compare event is pending on a running serializer, its handler's step next. -/
def State.placeEvent (s : State) (ch : Chan) : State :=
  { s.setPend ch true with
      serState := .running, fault := .noFault, handler := none, agenda := .isr ch :: s.agenda }

/-- The bytes stored in CMD from index 0. -/
def placeBytes : Nat → List Byte → Memory → Memory
  | _, [], m => m
  | a, b :: rest, m => placeBytes (a + 1) rest (Memory.write m a b)

/-- The state in which CMD holds `before`, the byte `b` is at RXQ's head in LineDelimited mode, and the foreground's
step is next. -/
def State.placeLine (s : State) (before : List Byte) (b : Byte) : State :=
  { s with
      seq := if s.seq.isLine then s.seq else .rxCmd1
      fault := .noFault, handler := none, fgTx := none
      cmd := placeBytes 0 before s.cmd, cmdLen := BitVec.ofNat 10 before.length
      rxq := b :: s.rxq, agenda := .fg :: s.agenda }

/-- The state in which the operation a table word stands for (decodeTableWord) is the next step's. -/
def State.placeWord (s : State) (nbits w : Nat) : State :=
  match decodeTableWord nbits w with
  | some .evtA => s.placeEvent .chA
  | some .evtB => s.placeEvent .chB
  | some .evtC => s.placeEvent .chC
  | some .evtD => s.placeEvent .chD
  | some i =>
    match encode i with
    | [] => s
    | [b] => s.placeLine [] b
    | bs => s.placeLine bs.dropLast newline
  | none => s

end Sys2Proof.Machine
end

