-- ==== Sys2Proof/Machine/Step.lean ====
section
/-! DEFINITION. One step of the block: the next move's operation, decoded and performed. A move whose agent has no
enabled step changes nothing but the agenda (or the count of free draws). -/

namespace Sys2Proof.Machine

/-- What is decoded is performed; bytes that encode no operation are refused by name. -/
def runDecoded (s : State) : Decoded → Host.Outcome State Fault Refusal
  | .ok i _ => exec i s
  | .reject r => .refused (.undecodable r)

/-- What was fetched is carried out. -/
def runFetched (s : State) : Fetched → Host.Outcome State Fault Refusal
  | .unit sel bytes => runDecoded s (decode sel bytes)
  | .device after => .next after
  | .nothing => .next s

/-- One step (R15, R20): the agent that the next move names takes its step. A configuration outside R8's range is
refused (D23). -/
def step (s : State) : Host.Outcome State Fault Refusal :=
  if s.cfg.legal then runFetched s.afterMove (fetch s.move s.afterMove)
  else .refused .illegalConfiguration

/-- The state with the operation of a table word placed so that the next step runs it. -/
def State.withFetchWord (s : State) (nbits w : Nat) : State := s.placeWord nbits w

end Sys2Proof.Machine
end

