-- ==== Sys2Proof/Laws/PerInstr.lean ====
section
/-! SUPPORT. The round trip of each operation's encoding: what the encoder writes, followed by any bytes, decodes under
the operation's selector to the operation itself and leaves those bytes. One lemma for each constructor of Instr. -/

namespace Sys2Proof

theorem splitLine_append {line rest : List Byte} (h : isLine line = true) :
    splitLine (line ++ rest) = some (line, rest) := by
  induction line with
  | nil => simp [isLine] at h
  | cons b tl ih =>
    simp only [isLine] at h
    by_cases hb : b = newline
    · rw [if_pos hb] at h
      simp only [List.isEmpty_iff] at h
      subst h
      simp [splitLine, hb]
    · rw [if_neg hb] at h
      simp [splitLine, hb, ih h]

theorem classify_other {line : List Byte} (h : notLiteral line = true) : classify line = .other := by
  simp only [notLiteral, Bool.and_eq_true, decide_eq_true_eq] at h
  simp [classify, h.1, h.2]

namespace Laws.RoundTrip

/-- What the encoder writes decodes to the operation, whatever follows. -/
def Statement (i : Instr) : Prop :=
  i.wellFormed = true → ∀ rest : List Byte, decode i.selector (encode i ++ rest) = .ok i rest


theorem lineAppend (b : Byte) : Statement (.lineAppend b) := by
  intro h rest
  have hb : b ≠ newline := by simpa [Instr.wellFormed] using h
  simp [decode, Instr.selector, encode, hb]

theorem lineEnd : Statement (.lineEnd) := fun _ _ => rfl

theorem cmdTransfer : Statement (.cmdTransfer) := fun _ _ => rfl

theorem cmdBoot3wb : Statement (.cmdBoot3wb) := fun _ _ => rfl

theorem cmdOther (line : List Byte) : Statement (.cmdOther line) := by
  intro h rest
  simp only [Instr.wellFormed, Bool.and_eq_true] at h
  obtain ⟨⟨hl, hf⟩, hn⟩ := h
  simp [decode, Instr.selector, encode, decodeLine, splitLine_append hl, hf, classify_other hn]

theorem dataByte (b : Byte) : Statement (.dataByte b) := fun _ _ => rfl

theorem dataLast (b : Byte) : Statement (.dataLast b) := fun _ _ => rfl

theorem fgSend : Statement (.fgSend) := fun _ _ => rfl

theorem decideBoot : Statement (.decideBoot) := fun _ _ => rfl

theorem arm : Statement (.arm) := fun _ _ => rfl

theorem start : Statement (.start) := fun _ _ => rfl

theorem waitRun : Statement (.waitRun) := fun _ _ => rfl

theorem waitIdle : Statement (.waitIdle) := fun _ _ => rfl

theorem evtA : Statement (.evtA) := fun _ _ => rfl

theorem evtB : Statement (.evtB) := fun _ _ => rfl

theorem evtC : Statement (.evtC) := fun _ _ => rfl

theorem evtD : Statement (.evtD) := fun _ _ => rfl

theorem dSend : Statement (.dSend) := fun _ _ => rfl

theorem evtIgnored (ch : Chan) : Statement (.evtIgnored ch) := by cases ch <;> exact fun _ _ => rfl

theorem setLine (id : LineId) (level : Level) : Statement (.setLine id level) := by
  cases id <;> cases level <;> exact fun _ _ => rfl

theorem timerFire : Statement (.timerFire) := fun _ _ => rfl

theorem timerConfigure (p : Nat) : Statement (.timerConfigure p) := fun _ _ => rfl

theorem timerArmChannel (ch : Chan) (off : Nat) (clr : Bool) : Statement (.timerArmChannel ch off clr) := by
  intro h rest
  have h' : (Control.timerArmChannel ch off clr).instr.wellFormed = true := h
  simp only [decode, Instr.selector, encode, h', List.nil_append, ite_true]
  rfl

theorem timerEnable : Statement (.timerEnable) := fun _ _ => rfl

theorem timerDisable : Statement (.timerDisable) := fun _ _ => rfl

theorem dispatch (ch : Chan) : Statement (.dispatch ch) := fun _ _ => rfl

theorem faultFraming : Statement (.faultFraming) := fun _ _ => rfl

theorem faultRxOverrun (b : Byte) : Statement (.faultRxOverrun b) := fun _ _ => rfl

theorem faultFifo : Statement (.faultFifo) := fun _ _ => rfl

theorem faultCmdOverrun (b : Byte) : Statement (.faultCmdOverrun b) := fun _ _ => rfl

theorem faultImageOob : Statement (.faultImageOob) := fun _ _ => rfl

end Laws.RoundTrip

end Sys2Proof
end

