-- ==== Sys2Proof/Safety.lean ====
section
/-! DEFINITION. The terms claims use: the ends of a run (R262), blocked phases (R110), the host's premises (R254, R258,
R259), the invariants of the state, what a frame leaves alone, and the schedule of a period. -/

namespace Sys2Proof.Machine

/-! Frames. -/

/-- Every byte of both spaces reads the same. -/
abbrev SameMemory (s t : State) : Prop :=
  (∀ a, t.readImage a = s.readImage a) ∧ (∀ a, t.readCmd a = s.readCmd a)

/-- No compare event is pending. -/
abbrev State.noPending (s : State) : Prop := s.tmrPend = ⟨false, false, false, false⟩

/-! The end of a run (R262). -/

/-- The boot-final state. -/
abbrev BootFinal (s : State) : Prop :=
  s.seq = .waitRun ∧ s.serState = .done ∧ s.handler = none ∧ s.tmrEn = false ∧ s.noPending
    ∧ s.fault = .noFault ∧ s.txq = []

/-- The idle-final state. -/
abbrev IdleFinal (s : State) : Prop := s.seq = .waitIdle ∧ s.fault = .noFault ∧ s.txq = []

/-- The foreground is blocked, which is no fault (R110): a reception phase with nothing to read, or a reply with no
room. -/
abbrev ForegroundBlocked (s : State) : Prop :=
  s.fault = .noFault ∧ s.seq.isReception = true
    ∧ ((s.fgTx = none ∧ s.rxq = []) ∨ (s.fgTx ≠ none ∧ ¬ s.txRoom))

/-! The host's premises. -/

/-- The timer takes a step next: a firing (R208), or a tick (R214). -/
abbrev State.timerMoves (s : State) : Prop := s.move = .timer ∧ s.tmrEn = true ∧ s.fault = .noFault

/-- The channels that the timer's next step fires: TMR_NEXT in the abstract model (R208), and those whose offset the next
tick reaches in the tick-level one (R214). -/
def State.nextFirings (s : State) : PerChan Bool :=
  if s.cfg.tickLevel then { s with tmrPend := ⟨false, false, false, false⟩ }.tick.tmrPend
  else PerChan.set ⟨false, false, false, false⟩ s.tmrNext true

/-- The ticks since channel `ch` last fired, as TMR_COUNT tells them where the channels stand as ARM leaves them (R133,
R214): the counter runs modulo T4. -/
def State.ticksSince (s : State) (ch : Chan) : Nat :=
  (s.tmrCount + s.cfg.platform.t4 - s.tmrCC.get ch) % s.cfg.platform.t4

/-- G (R254): the ticks within which a handler must return. -/
def deadlineTicks (p : Platform) : Nat :=
  min (min p.t1 (p.t2 - p.t1)) (min (p.t3 - p.t2) (p.t4 - p.t3))

/-- H-DEADLINE (R254), where the timer takes a step while RUNNING with no handler in progress. (The tick-level reading is
log entry 27. A handler's body other than the terminal EVT_D's returns in the step of its DISPATCH.) -/
structure HDeadline (s : State) : Prop where
  /-- Each handler body completes before the next compare event: nothing fires while an event is pending. -/
  beforeNext : s.timerMoves → s.serState = .running → s.handler = none →
    s.nextFirings ≠ ⟨false, false, false, false⟩ → s.noPending
  /-- In the tick-level model every DISPATCH but the terminal EVT_D's is taken within G ticks of its firing: no tick comes
  that makes it more than G ticks. -/
  withinG : s.timerMoves → s.serState = .running → s.handler = none → s.cfg.tickLevel = true →
    ∀ ch, s.tmrPend.get ch = true → ¬ (ch = .chD ∧ s.atTerminal) →
      s.ticksSince ch + 1 ≤ deadlineTicks s.cfg.platform

/-- H-RXFLOW (R258): the host does not push while RXQ is full. -/
abbrev HRxFlow (s : State) : Prop := ∀ b, s.move = .push b → s.rxRoom

/-- How many bytes a move pushes. -/
def pushesOf : Move → Nat
  | .push _ => 1
  | .fg | .timer | .isr _ | .pull | .framing | .fifo | .reset => 0

/-- How many bytes the host pushes in the next `n` steps of this run, whether the agenda or a free value gives the moves.
A fault ends the run (R204). -/
def pushesAlong : Nat → State → Nat
  | 0, _ => 0
  | n + 1, s =>
    if s.fault = .noFault then
      match step s with
      | .next t => pushesOf s.move + pushesAlong n t
      | .fault _ => 0
      | .refused _ => 0
    else 0

/-- The foreground has read its second command line: it sends that line's reply, or RX_CMD2 is over. -/
def State.secondLineRead (s : State) : Bool :=
  match s.seq with
  | .rxCmd2 => s.fgTx.isSome
  | .deciding | .doArm | .doStart | .waitRun | .waitIdle => true
  | .rxCmd1 | .rxData | .faulted => false

/-- H-QUIET (R259): after the second command line the host pushes at most RX_CAP further bytes in total. Once that line is
read nothing leaves RXQ, so RXQ holds exactly the bytes pushed after the line so far, and the rest are those that the run
still pushes. -/
abbrev HQuiet (s : State) : Prop :=
  s.secondLineRead = true → ∀ n, s.rxq.length + pushesAlong n s ≤ s.cfg.platform.rxCap

/-- The ticks that the serialization lasts (R261). -/
def serializationTicks (p : Params) : Nat := 8 * p.terminalCount * p.platform.t4

/-! Invariants. -/

/-- Both spaces are in canonical form and inside their index ranges (R43, R44, R69). -/
abbrev MemoryInv (s : State) : Prop :=
  Memory.wf s.image = true ∧ Memory.below imageSize s.image = true
    ∧ Memory.wf s.cmd = true ∧ Memory.below cmdCap s.cmd = true

/-- The ranges the spec gives the state's counters and queues (R23, R25, R26, R42). -/
structure RangeInv (s : State) : Prop where
  cmdLen : s.cmdLen.toNat ≤ cmdCap
  dataCnt : s.dataCnt.toNat ≤ imageSize
  fgTx : ∀ t, s.fgTx = some t → t.k < t.msg.bytes.length
  rxq : s.rxq.length ≤ s.cfg.platform.rxCap
  txq : s.txq.length ≤ s.cfg.platform.txCap

/-- RX_DATA has received every byte: its acknowledgment is under way, or a later phase has begun. -/
def State.dataReceived (s : State) : Bool :=
  match s.seq with
  | .rxData => s.fgTx.isSome
  | .rxCmd2 | .deciding | .doArm | .doStart | .waitRun | .waitIdle => true
  | .rxCmd1 | .faulted => false

/-- IMAGE is populated (R162, R256): every index below DATA_CNT holds a written byte, and once RX_DATA is over DATA_CNT is
IMAGE_SIZE. -/
structure PopulatedInv (s : State) : Prop where
  written : ∀ a, a < s.dataCnt.toNat → Memory.read s.image a ≠ none
  full : s.dataReceived = true → s.dataCnt.toNat = imageSize

/-- The timer's registers hold values of TIMER_BITS bits (R32, R34, R37). -/
abbrev TimerWidthInv (s : State) : Prop :=
  (∀ ch, s.tmrCC.get ch < 2 ^ s.cfg.platform.timerBits)
    ∧ s.tmrPeriod < 2 ^ s.cfg.platform.timerBits ∧ s.tmrCount < 2 ^ s.cfg.platform.timerBits

/-- How the foreground's phase, the serializer, the timer, the handler and the fault go together (R130, R150, R204). -/
structure SequenceInv (s : State) : Prop where
  /-- FAULTED is the phase of exactly the faulted states. -/
  faulted : s.seq = .faulted ↔ s.fault ≠ .noFault
  /-- Before ARM the serializer is IDLE. -/
  idle : s.seq.isReception = true ∨ s.seq = .deciding ∨ s.seq = .doArm ∨ s.seq = .waitIdle → s.serState = .idle
  /-- Between ARM and START it is ARMED. -/
  armed : s.seq = .doStart → s.serState = .armed
  /-- After START it is RUNNING or DONE. -/
  started : s.seq = .waitRun → s.serState = .running ∨ s.serState = .done
  /-- The timer runs only from START to DONE. -/
  enabled : s.tmrEn = true → s.seq = .waitRun ∧ s.serState = .running
  /-- A handler is in progress only while RUNNING, after START. -/
  handling : s.handler ≠ none → s.seq = .waitRun ∧ s.serState = .running
  /-- A message is in progress only in a reception phase. -/
  sending : s.fgTx ≠ none → s.seq.isReception = true
  /-- Nothing is pending before START. -/
  pending : s.seq ≠ .waitRun → s.seq ≠ .faulted → s.noPending

/-- The channel whose handler runs next: the pending one, or the one that fires next. -/
def State.nextHandled (s : State) : Chan :=
  bif s.tmrPend.a then .chA else bif s.tmrPend.b then .chB else bif s.tmrPend.c then .chC
  else bif s.tmrPend.d then .chD else s.tmrNext

/-- At most one event is pending, and it is the one that fired last. -/
abbrev State.onePending (s : State) : Prop :=
  s.noPending ∨ ∃ ch, s.tmrPend = PerChan.set ⟨false, false, false, false⟩ ch true ∧ s.tmrNext = nextChan ch

/-- The cursor's invariants (R30), with what makes them inductive under H-DEADLINE. -/
structure CursorInv (s : State) : Prop where
  /-- `BYTE_INDEX ≤ TERMINAL_COUNT`. -/
  bound : s.byteIndex.toNat ≤ s.cfg.terminalCount
  /-- `BYTE_INDEX = TERMINAL_COUNT` implies `BIT_INDEX = 0`. -/
  atEnd : s.byteIndex.toNat = s.cfg.terminalCount → s.bitIndex = 0
  /-- The timer is off and nothing is pending before START. -/
  before : s.serState = .idle ∨ s.serState = .armed → s.tmrEn = false ∧ s.noPending
  /-- ARM leaves the cursor at (0, 0) and channel A to fire first. -/
  armed : s.serState = .armed → s.byteIndex = 0 ∧ s.bitIndex = 0 ∧ s.tmrNext = .chA
  /-- While RUNNING with no handler in progress, events come one at a time and no EVT_A follows the terminal one. -/
  running : s.fault = .noFault → s.serState = .running → s.handler = none →
    s.onePending ∧ (s.byteIndex.toNat = s.cfg.terminalCount → s.nextHandled ≠ .chA)
  /-- The completion sequence runs at the terminal cursor only. -/
  handling : s.handler ≠ none → s.serState = .running ∧ s.byteIndex.toNat = s.cfg.terminalCount

/-! Periods. -/

/-- The moves of one period under H-DEADLINE (R91 "P k", R215): each channel fires and its handler runs. -/
def period : List Move :=
  [.timer, .isr .chA, .timer, .isr .chB, .timer, .isr .chC, .timer, .isr .chD]

/-- The moves of `n` periods. -/
def periods : Nat → List Move
  | 0 => []
  | n + 1 => period ++ periods n

/-- A running serializer at the start of a period, in the abstract timer model. -/
abbrev AtPeriodStart (s : State) : Prop :=
  s.cfg.legal = true ∧ s.cfg.tickLevel = false ∧ s.fault = .noFault ∧ s.handler = none ∧ s.serState = .running
    ∧ s.tmrEn = true ∧ s.tmrNext = .chA ∧ s.noPending

/-- The levels written to a line in a history, oldest first. -/
def lineWrites (id : LineId) : List Obs → List Level
  | [] => []
  | .lineWrite i level _ :: rest => if i = id then lineWrites id rest ++ [level] else lineWrites id rest
  | .delivered _ :: rest => lineWrites id rest
  | .pushed _ :: rest => lineWrites id rest

/-- The n-th bit of the image on the bus (R61): bit `n % 8` of `IMAGE[n / 8]`. -/
def State.imageBit (s : State) (n : Nat) : Byte := (s.readImage (n / 8) >>> (n % 8)) &&& 1

/-- The bytes delivered to the host in a history, oldest first. -/
def deliveredBytes : List Obs → List Byte
  | [] => []
  | .delivered b :: rest => deliveredBytes rest ++ [b]
  | .lineWrite _ _ _ :: rest => deliveredBytes rest
  | .pushed _ :: rest => deliveredBytes rest

end Sys2Proof.Machine
end

