-- ==== Sys2Proof/Certificates/Slice0/Obligations.lean ====
section
/-! DEFINITION. The statements for the provers. Each docstring says which rule of the spec the statement formalises, and
where a clause rests on a choice of the spec's or the model's own. -/

open Sys2Proof Sys2Proof.Machine

/-! Encoding. -/

/-- Decoding what the encoder wrote gives the operation back, with every operand at every value the encoding admits
(R81, R82, R84, R87, R88). (That an operation is read under a selector, and that narrow codes stand in the low bits of a
byte, is the model's choice, log entry 7.) -/
def Obligations.DecodeOfEncodeIsIdentity : Prop :=
  ∀ (i : Instr) (rest : List Byte), i.wellFormed = true → decode i.selector (encode i ++ rest) = .ok i rest

/-- Whatever decodes is well-formed, and its encoding is exactly the bytes that were read. The formats are those of R81 to
R88. That an operation is read under a selector, and that a narrow code stands in the low bits of its byte with the bits
above it zero, is the model's choice, log entry 7; that TIMER_FIRE and DISPATCH have no bytes is log entry 25; that
is_final_reset on a channel other than D is ill-formed is the model's deduction, log entry 17. -/
def Obligations.DecodedIsWellFormedAndEncodesBack : Prop :=
  ∀ (sel : Selector) (bytes rest : List Byte) (i : Instr), decode sel bytes = .ok i rest →
    i.wellFormed = true ∧ bytes = encode i ++ rest

/-- Nine words: a newline and the byte 0x53 in LineDelimited mode (R81), the two command literals (R84), channel identity
10 (R87, numbered by the spec's choice D1), the line write CLOCK HIGH = 101 (R88, R164, numbered by its choices D2 and
D3), 0x0A in FixedLength mode (R82), ARM with no byte (R80, R92), and the byte 0x58 of an overrun (R201). The selectors,
and that the 2-bit and 3-bit codes stand in the low bits of a byte, are the model's choice, log entry 7. The bytes of the
two literals are the ASCII codes, which R84 itself takes from general knowledge: PRESUMED, log entry 22. -/
def Obligations.SpecWordsDecode : Prop :=
  decode (.lineByte true) [0x0A] = .ok .lineEnd [] ∧ decode (.lineByte true) [0x53] = .ok (.lineAppend 0x53) []
    ∧ decode .lineDone [0x54, 0x52, 0x41, 0x4E, 0x53, 0x46, 0x45, 0x52, 0x0A] = .ok .cmdTransfer []
    ∧ decode .lineDone [0x42, 0x4F, 0x4F, 0x54, 0x33, 0x57, 0x42, 0x0A] = .ok .cmdBoot3wb []
    ∧ decode (.event true true) [0b10] = .ok .evtC [] ∧ decode .gpio [0b101] = .ok (.setLine .clock .high) []
    ∧ decode (.rawByte false) [0x0A] = .ok (.dataByte 0x0A) [] ∧ decode (.control .arm) [] = .ok .arm []
    ∧ decode (.transport .rxOverrun) [0x58] = .ok (.faultRxOverrun 0x58) []

/-- A completed line, whatever bytes follow it, is CMD_TRANSFER or CMD_BOOT3WB exactly where it equals that literal,
and CMD_OTHER otherwise (R85); a stream with no newline among its first CMD_CAP bytes has no legal encoding (R90). (That a
completed line is read under a selector of its own is the model's choice, log entry 7; the bytes of the literals are
PRESUMED, log entry 22.) -/
def Obligations.LinesAreClassifiedExactly : Prop :=
  (∀ line rest : List Byte, isLine line = true → line.length ≤ cmdCap →
    decode .lineDone (line ++ rest) =
      if line = transferLiteral then .ok .cmdTransfer rest
      else if line = boot3wbLiteral then .ok .cmdBoot3wb rest else .ok (.cmdOther line) rest)
    ∧ (∀ bytes : List Byte, newline ∉ bytes.take cmdCap → ∃ r, decode .lineDone bytes = .reject r)

/-! Memory. -/

/-- Two byte spaces in canonical form that read the same at every index are equal data. (The canonical form is the
model's, log entry 2.) -/
def Obligations.CanonicalSpacesThatReadAlikeAreEqual : Prop :=
  ∀ m m' : Memory, Memory.wf m = true → Memory.wf m' = true → (∀ a, Memory.read m a = Memory.read m' a) → m = m'

/-! The FrameReceiver. -/

/-- R101: the byte is popped and stored at CMD[CMD_LEN], CMD_LEN goes up by one, and nothing else changes. -/
def Obligations.LineAppendStoresAtReadCursor : Prop :=
  ∀ (s : State) (b : Byte) (rest : List Byte), s.lineReady → s.rxq = b :: rest → b ≠ newline →
    s.cmdLen.toNat < cmdCap →
    ∃ t, exec (.lineAppend b) s = .next t
      ∧ t = { s with rxq := rest, cmd := t.cmd, cmdLen := t.cmdLen } ∧ t.cmdLen.toNat = s.cmdLen.toNat + 1
      ∧ t.readCmd s.cmdLen.toNat = b ∧ (∀ a, a ≠ s.cmdLen.toNat → t.readCmd a = s.readCmd a)
      ∧ (∀ a, t.readImage a = s.readImage a)

/-- R102: the newline is popped and stored at CMD[CMD_LEN], CMD_LEN becomes 0, and the command of the whole line (its
CMD_LEN + 1 bytes, and no byte above them) is carried out in the same step. `u` is the state after the byte step. -/
def Obligations.LineEndCarriesOutItsLine : Prop :=
  ∀ (s : State) (rest : List Byte), s.lineReady → s.rxq = newline :: rest → s.cmdLen.toNat < cmdCap →
    ∃ u t, exec .lineEnd s = .next t
      ∧ u = { s with rxq := rest, cmd := u.cmd, cmdLen := 0 }
      ∧ u.readCmd s.cmdLen.toNat = newline ∧ (∀ a, a ≠ s.cmdLen.toNat → u.readCmd a = s.readCmd a)
      ∧ (∀ a, u.readImage a = s.readImage a)
      ∧ SameMemory u t
      ∧ (let line := (List.range (s.cmdLen.toNat + 1)).map u.readCmd
         (line = transferLiteral → exec .cmdTransfer u = .next t)
          ∧ (line = boot3wbLiteral → exec .cmdBoot3wb u = .next t)
          ∧ (line ≠ transferLiteral → line ≠ boot3wbLiteral → exec (.cmdOther line) u = .next t))

/-- R103, R104, R105: TRANSFER starts its reply and leaves BOOT_FLAG; BOOT3WB sets BOOT_FLAG and starts its reply; any
other line sends nothing and returns from the reception step at once. Nothing else changes. (That a command performed on
its own compares nothing, so that CMD_OTHER has this effect whatever line it is given, the two literals included, is the
model's deduction, log entry 10: LINE_END makes the comparison.) -/
def Obligations.CommandsReplyAndSetTheFlag : Prop :=
  ∀ (s : State) (line : List Byte), s.lineReady →
    exec .cmdTransfer s = .next { s with fgTx := some ⟨.transferStarted, 0⟩ }
    ∧ exec .cmdBoot3wb s = .next { s with bootFlag := true, fgTx := some ⟨.bootloadStarted, 0⟩ }
    ∧ exec (.cmdOther line) s = .next { s with seq := if s.seq = .rxCmd1 then .rxData else .deciding }

/-- R107: the byte, whatever its value, is popped and stored at IMAGE[DATA_CNT], DATA_CNT goes up by one, and nothing
else changes: no reply is begun. -/
def Obligations.DataByteStoresAtNextOffset : Prop :=
  ∀ (s : State) (b : Byte) (rest : List Byte), s.rawReady → s.rxq = b :: rest → s.dataCnt.toNat < imageSize - 1 →
    ∃ t, exec (.dataByte b) s = .next t
      ∧ t = { s with rxq := rest, image := t.image, dataCnt := t.dataCnt } ∧ t.dataCnt.toNat = s.dataCnt.toNat + 1
      ∧ t.readImage s.dataCnt.toNat = b ∧ (∀ a, a ≠ s.dataCnt.toNat → t.readImage a = s.readImage a)
      ∧ (∀ a, t.readCmd a = s.readCmd a)

/-- R108: the last byte is stored at IMAGE[IMAGE_SIZE − 1], DATA_CNT becomes IMAGE_SIZE, the acknowledgment begins, and
nothing else changes. -/
def Obligations.DataLastStoresAndAcknowledges : Prop :=
  ∀ (s : State) (b : Byte) (rest : List Byte), s.rawReady → s.rxq = b :: rest → s.dataCnt.toNat = imageSize - 1 →
    ∃ t, exec (.dataLast b) s = .next t
      ∧ t = { s with rxq := rest, image := t.image, dataCnt := t.dataCnt, fgTx := some ⟨.dataAck, 0⟩ }
      ∧ t.dataCnt.toNat = imageSize
      ∧ t.readImage (imageSize - 1) = b ∧ (∀ a, a ≠ imageSize - 1 → t.readImage a = s.readImage a)
      ∧ (∀ a, t.readCmd a = s.readCmd a)

/-- R109: with room, byte k of the message is appended to TXQ; the last byte ends the reply and the reception step
returns. (For TXQ full see BlockedAgentsWait.) -/
def Obligations.FgSendHandsOverOneByte : Prop :=
  ∀ (s : State) (m : Msg) (k : Nat) (b : Byte), s.free → s.seq.isReception = true → s.fgTx = some ⟨m, k⟩ →
    m.bytes[k]? = some b → s.txRoom →
    (k + 1 = m.bytes.length →
      exec .fgSend s = .next { s with
        txq := s.txq ++ [b], fgTx := none
        seq := if s.seq = .rxCmd1 then .rxData else if s.seq = .rxData then .rxCmd2 else .deciding })
    ∧ (k + 1 < m.bytes.length →
      exec .fgSend s = .next { s with txq := s.txq ++ [b], fgTx := some ⟨m, k + 1⟩ })

/-- R109, R110 and R156: while TXQ is full FG_SEND and D_SEND wait, and with RXQ empty a reception step waits. (That a
wait is a step that changes nothing is the model's choice, log entry 3.) -/
def Obligations.BlockedAgentsWait : Prop :=
  (∀ (s : State) (m : Msg) (k : Nat), s.free → s.seq.isReception = true → s.fgTx = some ⟨m, k⟩ →
      k < m.bytes.length → ¬ s.txRoom → exec .fgSend s = .next s)
    ∧ (∀ (s : State) (k : Fin 18), s.fault = .noFault → s.handler = some k → k.val < 17 → ¬ s.txRoom →
        exec .dSend s = .next s)
    ∧ (∀ s : State, s.cfg.legal = true → s.move = .fg → s.seq.isReception = true → s.fgTx = none → s.rxq = [] →
        step s = .next s.afterMove)

/-- The run of FG_SEND steps for a message (R16 SendMsg, R109): with room for all of it, the foreground's moves append
the whole message to TXQ in order, and the reception step returns. The messages are the literal bytes of R86:
"transfer_started\n", "bootload_started\n" and "data_ack\n". (That the bytes are the ASCII codes is the spec's own from
general knowledge, log entry 22.) -/
def Obligations.ReplyIsSentWholeAndInOrder : Prop :=
  ∀ (s : State) (m : Msg) (text : List Byte) (rest : List Move),
    text = (match m with
      | .transferStarted =>
        [0x74, 0x72, 0x61, 0x6E, 0x73, 0x66, 0x65, 0x72, 0x5F, 0x73, 0x74, 0x61, 0x72, 0x74, 0x65, 0x64, 0x0A]
      | .bootloadStarted =>
        [0x62, 0x6F, 0x6F, 0x74, 0x6C, 0x6F, 0x61, 0x64, 0x5F, 0x73, 0x74, 0x61, 0x72, 0x74, 0x65, 0x64, 0x0A]
      | .dataAck => [0x64, 0x61, 0x74, 0x61, 0x5F, 0x61, 0x63, 0x6B, 0x0A]) →
    s.cfg.legal = true → s.free → s.seq.isReception = true →
    s.fgTx = some ⟨m, 0⟩ → s.txq.length + text.length ≤ s.cfg.platform.txCap →
    s.agenda = List.replicate text.length .fg ++ rest →
    Host.Core.run core text.length s =
      .next { s with txq := s.txq ++ text, fgTx := none, seq := nextPhase s.seq, agenda := rest }

/-- R111 and R204: a byte for a full command buffer, newline or not, is selected as the overrun; it is popped and the
block faults; CMD and CMD_LEN stay. (The source calls the overrun undefined; the fault is the spec's own choice, D9.) -/
def Obligations.CommandOverrunFaults : Prop :=
  (∀ (s : State) (b : Byte) (rest : List Byte), s.lineReady → s.rxq = b :: rest → s.cmdLen.toNat = cmdCap →
    exec (.faultCmdOverrun b) s = .next { s with
      rxq := rest, fault := .cmdOverrun, seq := .faulted, fgTx := none, handler := none, tmrEn := false })
  ∧ (∀ (s : State) (b : Byte) (rest : List Byte), s.cfg.legal = true → s.move = .fg → s.afterMove.lineReady →
    s.rxq = b :: rest → s.cmdLen.toNat = cmdCap → step s = exec (.faultCmdOverrun b) s.afterMove)

/-- R83: the byte at RXQ's head is decoded by SEQ and the unit's count alone; in a phase past the reception no step of
the foreground reads RXQ. `s.afterMove` is the state once the move is taken. -/
def Obligations.ReceivedByteIsDecodedByPhase : Prop :=
  ∀ s : State, s.cfg.legal = true → s.move = .fg →
    (∀ b rest, s.afterMove.lineReady → s.rxq = b :: rest → s.cmdLen.toNat < cmdCap →
      step s = exec (if b = newline then .lineEnd else .lineAppend b) s.afterMove)
    ∧ (∀ b rest, s.afterMove.rawReady → s.rxq = b :: rest → s.dataCnt.toNat < imageSize - 1 →
      step s = exec (.dataByte b) s.afterMove)
    ∧ (∀ b rest, s.afterMove.rawReady → s.rxq = b :: rest → s.dataCnt.toNat = imageSize - 1 →
      step s = exec (.dataLast b) s.afterMove)
    ∧ (s.seq.isReception = false → ∀ t, step s = .next t → t.rxq = s.rxq)

/-! The sequencer. -/

/-- R132: BOOT_FLAG chooses between DO_ARM and WAIT_IDLE; nothing else changes. -/
def Obligations.DecideFollowsBootFlag : Prop :=
  ∀ s : State, s.free → s.seq = .deciding →
    (s.bootFlag = true → exec .decideBoot s = .next { s with seq := .doArm })
    ∧ (s.bootFlag = false → exec .decideBoot s = .next { s with seq := .waitIdle })

/-- R133: ARM configures the timer and its four channels, zeroes the cursor, and goes to ARMED and DO_START; it neither
enables the timer nor writes a line. (That the period is T4 and that the cursor is written (0, 0) are the spec's own
choices, D15 and D7.) -/
def Obligations.ArmConfiguresTimerAndCursor : Prop :=
  ∀ s : State, s.free → s.seq = .doArm → s.serState = .idle →
    ∃ t, exec .arm s = .next t
      ∧ t = { s with
                tmrPeriod := s.cfg.platform.t4
                tmrCC := ⟨s.cfg.platform.t1, s.cfg.platform.t2, s.cfg.platform.t3, s.cfg.platform.t4⟩
                tmrClr := ⟨false, false, false, true⟩
                tmrNext := .chA, byteIndex := 0, bitIndex := 0, serState := .armed, seq := .doStart }

/-- R134: START enables the timer and goes to RUNNING and WAIT_RUN in one step; nothing else changes. -/
def Obligations.StartEnablesTimer : Prop :=
  ∀ s : State, s.free → s.seq = .doStart → s.serState = .armed →
    exec .start s = .next { s with tmrEn := true, serState := .running, seq := .waitRun }

/-- R138 and D38 (the spec's own choice): ARM anywhere but in DO_ARM with SER_STATE = IDLE, and START anywhere but in
DO_START with SER_STATE = ARMED, are refused. -/
def Obligations.ArmAndStartOutOfOrderAreRefused : Prop :=
  ∀ s : State,
    (¬ (s.seq = .doArm ∧ s.serState = .idle) → exec .arm s = .refused .ctrlOutOfOrder)
    ∧ (¬ (s.seq = .doStart ∧ s.serState = .armed) → exec .start s = .refused .ctrlOutOfOrder)

/-- R135, R136 and R140: the two waits change nothing, and no foreground move in them, a handler in progress or not,
changes anything but the agenda. (R135 and R136 say that the foreground has no step there; that performing WAIT_RUN or
WAIT_IDLE is a step that changes nothing is the model's deduction, log entry 14, and the wait of a disabled move its
choice, log entry 3. WAIT_IDLE is the spec's own choice, D8.) -/
def Obligations.WaitsNeverEnd : Prop :=
  (∀ s : State, s.free → s.seq = .waitRun → exec .waitRun s = .next s)
    ∧ (∀ s : State, s.free → s.seq = .waitIdle → exec .waitIdle s = .next s)
    ∧ (∀ s : State, s.cfg.legal = true → s.move = .fg → s.seq = .waitRun ∨ s.seq = .waitIdle →
        step s = .next s.afterMove)

/-! The serializer. -/

/-- R152 and R159: DATA is driven HIGH for a 0 bit and LOW for a 1 bit, the bit being bit BIT_INDEX of
IMAGE[BYTE_INDEX]; then the cursor moves to the next bit, or from bit 7 to the next byte. Nothing else changes. With
BYTE_INDEX outside IMAGE the event faults with IMAGE_OOB instead, and the line and the cursor stay. (That fault is the
spec's own choice, D23, by R65 and R203.) -/
def Obligations.EvtAEmitsTheBitInverted : Prop :=
  ∀ s : State, s.free → s.serState = .running →
    (s.byteIndex.toNat < imageSize →
      ∃ t, exec .evtA s = .next t
        ∧ t = { s with
                  line := { s.line with data := t.line.data }
                  history := .lineWrite .data t.line.data (some .chA) :: s.history
                  bitIndex := t.bitIndex, byteIndex := t.byteIndex }
        ∧ t.line.data = (if (s.readImage s.byteIndex.toNat).getLsbD s.bitIndex.toNat then .low else .high)
        ∧ (s.bitIndex.toNat < 7 →
            t.bitIndex.toNat = s.bitIndex.toNat + 1 ∧ t.byteIndex.toNat = s.byteIndex.toNat)
        ∧ (s.bitIndex.toNat = 7 → t.bitIndex.toNat = 0 ∧ t.byteIndex.toNat = s.byteIndex.toNat + 1)
        ∧ SameMemory s t)
    ∧ (imageSize ≤ s.byteIndex.toNat →
      ∃ t, exec .evtA s = .next t ∧ t.fault = .imageOob ∧ t.line = s.line
        ∧ t.byteIndex = s.byteIndex ∧ t.bitIndex = s.bitIndex)

/-- R203 and R204: EVT_A, and the operation FAULT_IMAGE_OOB itself, with BYTE_INDEX outside IMAGE fault before any line
is written. (The fault is the spec's own choice, D23.) -/
def Obligations.ImageOutOfRangeFaults : Prop :=
  ∀ s : State, s.free → s.serState = .running → imageSize ≤ s.byteIndex.toNat →
    exec .evtA s = .next { s with
        fault := .imageOob, seq := .faulted, fgTx := none, handler := none, tmrEn := false }
      ∧ exec .faultImageOob s = .next { s with
        fault := .imageOob, seq := .faulted, fgTx := none, handler := none, tmrEn := false }

/-- R153: LATCH is driven to its asserted level where BIT_INDEX = 0 and BYTE_INDEX is a multiple of 4, and to the other
level everywhere else; nothing else changes. -/
def Obligations.EvtBLatchesAtWordBoundaries : Prop :=
  ∀ s : State, s.free → s.serState = .running →
    ∃ t, exec .evtB s = .next t
      ∧ t = { s with
                line := { s.line with latch := t.line.latch }
                history := .lineWrite .latch t.line.latch (some .chB) :: s.history }
      ∧ (t.line.latch = s.cfg.platform.latchActive ↔ s.bitIndex.toNat = 0 ∧ s.byteIndex.toNat % 4 = 0)
      ∧ SameMemory s t

/-- R154: CLOCK is driven LOW; nothing else changes. -/
def Obligations.EvtCDrivesClockLow : Prop :=
  ∀ s : State, s.free → s.serState = .running →
    exec .evtC s = .next { s with
      line := { s.line with clock := .low }, history := .lineWrite .clock .low (some .chC) :: s.history }

/-- R155 and R160: CLOCK is driven HIGH; then, exactly where BYTE_INDEX equals TERMINAL_COUNT, FINISH is driven to its
asserted level and the completion sequence begins. Nothing else changes: the timer stays enabled. -/
def Obligations.EvtDRaisesClockAndTerminates : Prop :=
  ∀ s : State, s.free → s.serState = .running →
    (s.byteIndex.toNat ≠ s.cfg.terminalCount →
      exec .evtD s = .next { s with
        line := { s.line with clock := .high }, history := .lineWrite .clock .high (some .chD) :: s.history })
    ∧ (s.byteIndex.toNat = s.cfg.terminalCount →
      exec .evtD s = .next { s with
        line := { s.line with clock := .high, finish := s.cfg.platform.finishActive }
        history := .lineWrite .finish s.cfg.platform.finishActive (some .chD)
          :: .lineWrite .clock .high (some .chD) :: s.history
        handler := some 0 })

/-- R156: with room, D_SEND(k) for k < 17 appends byte k of the completion message; D_SEND(17) disables the timer, goes
to DONE and returns. (For TXQ full see BlockedAgentsWait.) -/
def Obligations.DSendSendsTheMessageThenStops : Prop :=
  ∀ (s : State) (k : Fin 18), s.fault = .noFault → s.handler = some k →
    (∀ b, bootloadSuccess[k.val]? = some b → s.txRoom →
      exec .dSend s = .next { s with txq := s.txq ++ [b], handler := some (k + 1) })
    ∧ (k.val = 17 → exec .dSend s = .next { s with tmrEn := false, serState := .done, handler := none })

/-- R156 and V-S10: with room for the message, eighteen steps of the interrupt context send "bootload_success\n", the
literal bytes of R86, whole and in order, disable the timer and reach DONE. (That the bytes are the ASCII codes is the
spec's own from general knowledge, log entry 22; that an interrupt move of any channel is a step of the sequence is log
entry 18.) -/
def Obligations.CompletionSequenceReachesDone : Prop :=
  ∀ (s : State) (ch : Chan) (rest : List Move), s.cfg.legal = true → s.fault = .noFault → s.handler = some 0 →
    s.txq.length + 17 ≤ s.cfg.platform.txCap → s.agenda = List.replicate 18 (.isr ch) ++ rest →
    Host.Core.run core 18 s = .next { s with
      txq := s.txq
        ++ [0x62, 0x6F, 0x6F, 0x74, 0x6C, 0x6F, 0x61, 0x64, 0x5F, 0x73, 0x75, 0x63, 0x63, 0x65, 0x73, 0x73, 0x0A]
      tmrEn := false, serState := .done, handler := none, agenda := rest }

/-- R157: an event while SER_STATE is not RUNNING changes nothing. (For IDLE and ARMED this is the spec's own choice,
D12.) -/
def Obligations.IgnoredEventsChangeNothing : Prop :=
  ∀ (s : State) (ch : Chan), s.free → s.serState ≠ .running → exec (.evtIgnored ch) s = .next s

/-- R164: the line takes the level, the write enters the history, the other lines and everything else stay. (That a
SET_LINE on its own names no event is the model's choice, log entry 8.) -/
def Obligations.SetLineWritesOneLine : Prop :=
  ∀ (s : State) (id : LineId) (l : Level),
    ∃ t, exec (.setLine id l) s = .next t
      ∧ t = { s with line := t.line, history := .lineWrite id l none :: s.history }
      ∧ t.line.get id = l ∧ (∀ id', id' ≠ id → t.line.get id' = s.line.get id') ∧ SameMemory s t

/-- R216 and R151: DISPATCH clears the channel's pending bit and, in the same step, does what that channel's event does
while RUNNING, and nothing more otherwise. (That an event in IDLE or ARMED does nothing is the spec's own choice, D12;
that the choice among pending channels is the move's is log entry 18.) -/
def Obligations.DispatchRunsTheSelectedHandler : Prop :=
  ∀ (s : State) (ch : Chan), s.free → s.tmrPend.get ch = true →
    ∃ t, exec (.dispatch ch) s = .next t
      ∧ (s.serState ≠ .running → t = { s with tmrPend := s.tmrPend.set ch false })
      ∧ (s.serState = .running →
          exec (match ch with | .chA => .evtA | .chB => .evtB | .chC => .evtC | .chD => .evtD)
            { s with tmrPend := s.tmrPend.set ch false } = .next t)

/-! The timer. -/

/-- R208: the channel TMR_NEXT becomes pending (a firing onto a pending channel is absorbed) and TMR_NEXT goes on in the
order A, B, C, D, A; nothing else changes. (The abstract rule is the spec's own choice, D13 and D14.) -/
def Obligations.TimerFiresChannelsInOrder : Prop :=
  ∀ s : State, s.tmrEn = true → s.fault = .noFault →
    ∃ t, exec .timerFire s = .next t ∧ t = { s with tmrPend := t.tmrPend, tmrNext := t.tmrNext }
      ∧ t.tmrPend.get s.tmrNext = true ∧ (∀ ch, ch ≠ s.tmrNext → t.tmrPend.get ch = s.tmrPend.get ch)
      ∧ t.tmrNext.code.toNat = (s.tmrNext.code.toNat + 1) % 4

/-- R209 to R212: each timer operation writes its own registers and nothing else. (What `configure` and `disable` do
is the spec's own choice, D14 to D16. That they act in every state, a faulted one included, is the model's deduction, log
entry 8; that TIMER_ARM_CHANNEL writes the bit it is given on channels A to C too, where R210 allows only 0 and the
decoder rejects 1, is its deduction, log entry 17; and that a value wider than TIMER_BITS leaves a free value is its
choice, log entry 9.) -/
def Obligations.TimerOperationsWriteTheirRegisters : Prop :=
  ∀ (s : State) (p off : Nat) (ch : Chan) (clr : Bool),
    (∃ t, exec (.timerConfigure p) s = .next t ∧ t = { s with tmrPeriod := t.tmrPeriod }
      ∧ (p < 2 ^ s.cfg.platform.timerBits → t.tmrPeriod = p))
    ∧ (∃ t, exec (.timerArmChannel ch off clr) s = .next t
      ∧ t = { s with tmrCC := t.tmrCC, tmrClr := t.tmrClr }
      ∧ (off < 2 ^ s.cfg.platform.timerBits → t.tmrCC.get ch = off) ∧ t.tmrClr.get ch = clr
      ∧ (∀ ch', ch' ≠ ch → t.tmrCC.get ch' = s.tmrCC.get ch' ∧ t.tmrClr.get ch' = s.tmrClr.get ch'))
    ∧ exec .timerEnable s = .next { s with tmrEn := true }
    ∧ exec .timerDisable s = .next { s with tmrEn := false }

/-- R214, where the timer moves by ticks: with the channels as ARM leaves them, a tick counts modulo T4 and makes
exactly the channels pending whose offset is reached; nothing else changes. The ticks since a channel fired are 0 exactly
for the channels that fire, and one more for each tick, modulo T4. And R254: under H-DEADLINE, while RUNNING with no
handler in progress, a tick that comes while an event is pending fires no channel, and no event but the terminal EVT_D has
then been pending for more than G ticks. (The counter's arithmetic is the spec's own choice, D14; that a configuration
chooses the tick in place of R208 is the model's, log entry 6, and so is H-DEADLINE's reading in ticks, log entry 27.) -/
def Obligations.TickCountsModuloThePeriod : Prop :=
  ∀ s : State, s.cfg.legal = true → s.cfg.tickLevel = true → s.move = .timer → s.tmrEn = true →
    s.fault = .noFault →
    s.tmrCC = ⟨s.cfg.platform.t1, s.cfg.platform.t2, s.cfg.platform.t3, s.cfg.platform.t4⟩ →
    s.tmrClr = ⟨false, false, false, true⟩ → s.tmrCount < s.cfg.platform.t4 →
    ∃ t, step s = .next t ∧ t = { s.afterMove with tmrPend := t.tmrPend, tmrCount := t.tmrCount }
      ∧ t.tmrCount = (s.tmrCount + 1) % s.cfg.platform.t4
      ∧ (∀ ch, t.tmrPend.get ch = (s.tmrPend.get ch || decide (s.tmrCount + 1 = s.tmrCC.get ch))
          ∧ (t.ticksSince ch = 0 ↔ s.tmrCount + 1 = s.tmrCC.get ch)
          ∧ t.ticksSince ch = (s.ticksSince ch + 1) % s.cfg.platform.t4)
      ∧ (HDeadline s → s.serState = .running → s.handler = none → ¬ s.noPending →
          t.tmrPend = s.tmrPend
          ∧ ∀ ch, s.tmrPend.get ch = true → ¬ (ch = .chD ∧ s.atTerminal) →
              t.ticksSince ch ≤ deadlineTicks s.cfg.platform)

/-! Faults and the transport. -/

/-- R201 and R204: each transport fault records its code, ends the foreground's work and the handler, and disables the
timer; lines, cursor, SER_STATE, both buffers, TMR_PEND and both queues stay, and an overrun's byte is lost. (When a
framing or FIFO error occurs, and that it ends in this state, is the spec's own choice, D10. That the lost byte of an
overrun enters the history, since R46 records every byte the host pushes, is the model's choice, log entry 12.) -/
def Obligations.TransportFaultsStopTheBlock : Prop :=
  ∀ (s : State) (b : Byte), s.fault = .noFault →
    exec .faultFraming s = .next { s with
        fault := .xportFraming, seq := .faulted, fgTx := none, handler := none, tmrEn := false }
      ∧ exec .faultFifo s = .next { s with
        fault := .xportFifo, seq := .faulted, fgTx := none, handler := none, tmrEn := false }
      ∧ (s.cfg.platform.rxCap ≤ s.rxq.length →
          exec (.faultRxOverrun b) s = .next { s with
            fault := .xportOverrun, seq := .faulted, fgTx := none, handler := none, tmrEn := false
            history := .pushed b :: s.history })

/-- R224, R63 and R46: a push with room appends to RXQ, a push onto a full RXQ is FAULT_RX_OVERRUN, and a pull removes
TXQ's head and delivers it, a fault or not; each enters the history. (The queues are the spec's own choice, D18 and
D19.) -/
def Obligations.HostPushesAndPulls : Prop :=
  ∀ (s : State) (b : Byte), s.cfg.legal = true →
    (s.move = .push b → s.fault = .noFault → s.rxq.length < s.cfg.platform.rxCap →
      step s = .next { s.afterMove with rxq := s.rxq ++ [b], history := .pushed b :: s.history })
    ∧ (s.move = .push b → s.fault = .noFault → s.cfg.platform.rxCap ≤ s.rxq.length →
      step s = exec (.faultRxOverrun b) s.afterMove)
    ∧ (∀ rest, s.move = .pull → s.txq = b :: rest →
      step s = .next { s.afterMove with txq := rest, history := .delivered b :: s.history })

/-- R205 and R204: after a fault nothing changes any more but that the host receives bytes already in TXQ, unless the
platform resets the block. (That a byte pushed after a fault is not recorded in the history is the model's choice, log
entry 12, and that a disabled move changes only the agenda is its choice, log entry 3.) -/
def Obligations.FaultsAreSticky : Prop :=
  ∀ s t : State, s.fault ≠ .noFault → s.move ≠ .reset → step s = .next t →
    t = { s.afterMove with txq := t.txq, history := t.history }
      ∧ ((t.txq = s.txq ∧ t.history = s.history)
        ∨ ∃ b, s.txq = b :: t.txq ∧ t.history = .delivered b :: s.history)

/-- R200, R201, R202, R203: the move and the condition behind each fault that a step raises; and R259: under H-QUIET no
push after the second command line overruns RXQ, and H-QUIET holds on after the step. (The faults themselves are the
spec's own choices, D9, D10 and D23; H-QUIET as the bytes in RXQ and those the run still pushes is the model's reading,
log entry 26.) -/
def Obligations.FaultsHaveTheirCauses : Prop :=
  (∀ s t : State, s.fault = .noFault → step s = .next t →
    match t.fault with
    | .noFault => True
    | .xportFraming => s.move = .framing
    | .xportOverrun => ∃ b, s.move = .push b ∧ s.cfg.platform.rxCap ≤ s.rxq.length
    | .xportFifo => s.move = .fifo
    | .cmdOverrun => s.move = .fg ∧ s.seq.isLine = true ∧ s.cmdLen.toNat = cmdCap ∧ s.rxq ≠ []
    | .imageOob => s.move = .isr .chA ∧ s.serState = .running ∧ imageSize ≤ s.byteIndex.toNat)
  ∧ (∀ s t : State, s.fault = .noFault → s.secondLineRead = true → HQuiet s → step s = .next t →
      t.fault ≠ .xportOverrun ∧ HQuiet t)

/-! The step. -/

/-- A step performs the operation that its move selects (R15, R20, R92 "selected by"): the bytes fetched are decoded and
exec of the decoded operation answers. By agent: the foreground performs DECIDE, ARM, START and the waits in their phases
and FG_SEND while a message is in progress (a received byte: ReceivedByteIsDecodedByPhase); the enabled timer performs
TIMER_FIRE; the interrupt context performs D_SEND while a handler is in progress and DISPATCH of a pending channel
otherwise; the transport performs FAULT_FRAMING and FAULT_FIFO. (The moves, and a disabled move as a step that changes
nothing else, are the model's choice, log entries 1, 3 and 18; the abstract timer is chosen by log entry 6.) -/
def Obligations.StepRunsTheDecodedOperation : Prop :=
  ∀ s : State, s.cfg.legal = true →
    (∀ sel bytes i rest, fetch s.move s.afterMove = .unit sel bytes → decode sel bytes = .ok i rest →
      step s = exec i s.afterMove)
    ∧ (fetch s.move s.afterMove = .nothing → step s = .next s.afterMove)
    ∧ (s.move = .fg → s.free →
        (s.seq = .deciding → step s = exec .decideBoot s.afterMove)
        ∧ (s.seq = .doArm → step s = exec .arm s.afterMove)
        ∧ (s.seq = .doStart → step s = exec .start s.afterMove)
        ∧ (s.seq = .waitRun → step s = exec .waitRun s.afterMove)
        ∧ (s.seq = .waitIdle → step s = exec .waitIdle s.afterMove)
        ∧ (∀ m k, s.seq.isReception = true → s.fgTx = some ⟨m, k⟩ → k < m.bytes.length →
            step s = exec .fgSend s.afterMove))
    ∧ (s.move = .timer → s.fault = .noFault →
        (s.tmrEn = true → s.cfg.tickLevel = false → step s = exec .timerFire s.afterMove)
        ∧ (s.tmrEn = false → step s = .next s.afterMove))
    ∧ (∀ ch, s.move = .isr ch → s.fault = .noFault →
        (s.handler = none → s.tmrPend.get ch = true → step s = exec (.dispatch ch) s.afterMove)
        ∧ (s.handler = none → s.tmrPend.get ch = false → step s = .next s.afterMove)
        ∧ (s.handler ≠ none → step s = exec .dSend s.afterMove))
    ∧ (s.fault = .noFault →
        (s.move = .framing → step s = exec .faultFraming s.afterMove)
        ∧ (s.move = .fifo → step s = exec .faultFifo s.afterMove))

/-- R8 and D23 (the spec's own choice): a TERMINAL_COUNT outside 1..IMAGE_SIZE is refused. (That every step is what is
refused is the model's deduction, log entry 5.) -/
def Obligations.IllegalTerminalCountIsRefused : Prop :=
  ∀ s : State, s.cfg.terminalCount = 0 ∨ imageSize < s.cfg.terminalCount →
    step s = .refused .illegalConfiguration

/-- R217: while a handler is in progress the foreground takes no step and no pending event is dispatched. (That the
handler cannot be preempted is the spec's own choice, D13; that the foreground's disabled move is a step that changes only
the agenda is the model's, log entry 3.) -/
def Obligations.HandlerIsNotPreempted : Prop :=
  ∀ s t : State, s.handler ≠ none → step s = .next t →
    (s.move = .fg → t = s.afterMove)
    ∧ (∀ ch, s.move = .isr ch → t.tmrPend = s.tmrPend ∧ t.byteIndex = s.byteIndex ∧ t.bitIndex = s.bitIndex
        ∧ t.line = s.line)

/-! Rules of the whole machine. -/

/-- R150: the only transitions of SER_STATE are IDLE to ARMED by ARM, ARMED to RUNNING by START, and RUNNING to DONE by
the last D_SEND; only the platform's reset goes back to IDLE. -/
def Obligations.SerStateTransitions : Prop :=
  ∀ s t : State, SequenceInv s → step s = .next t → s.move ≠ .reset →
    t.serState = s.serState
      ∨ (s.serState = .idle ∧ t.serState = .armed ∧ s.move = .fg ∧ s.seq = .doArm)
      ∨ (s.serState = .armed ∧ t.serState = .running ∧ s.move = .fg ∧ s.seq = .doStart)
      ∨ (s.serState = .running ∧ t.serState = .done ∧ s.handler = some 17 ∧ ∃ ch, s.move = .isr ch)

/-- R22 and R131: SEQ only moves forward, by the foreground's own steps, along the sequence of R130, or to FAULTED. -/
def Obligations.PhasesOnlyAdvance : Prop :=
  ∀ s t : State, step s = .next t → s.move ≠ .reset →
    t.seq = s.seq ∨ (t.seq = .faulted ∧ t.fault ≠ .noFault)
      ∨ (s.move = .fg
          ∧ ((s.seq = .rxCmd1 ∧ t.seq = .rxData) ∨ (s.seq = .rxData ∧ t.seq = .rxCmd2)
            ∨ (s.seq = .rxCmd2 ∧ t.seq = .deciding) ∨ (s.seq = .deciding ∧ s.bootFlag = true ∧ t.seq = .doArm)
            ∨ (s.seq = .deciding ∧ s.bootFlag = false ∧ t.seq = .waitIdle)
            ∨ (s.seq = .doArm ∧ t.seq = .doStart) ∨ (s.seq = .doStart ∧ t.seq = .waitRun)))

/-- R24 and R139: a step changes BOOT_FLAG only to 1, only where the foreground reads the newline of a line in
LineDelimited mode, and no step but the platform's reset clears it. -/
def Obligations.BootFlagIsOnlyEverSet : Prop :=
  ∀ s t : State, step s = .next t → s.move ≠ .reset → t.bootFlag ≠ s.bootFlag →
    t.bootFlag = true ∧ s.move = .fg ∧ s.seq.isLine = true ∧ s.rxq.head? = some newline
      ∧ t.fgTx = some ⟨.bootloadStarted, 0⟩

/-- R40: DATA is written by EVT_A only, LATCH by EVT_B only, CLOCK by EVT_C and EVT_D only, FINISH by the terminal branch
of EVT_D only, each while RUNNING; a write of the level a line already has counts (it enters the history). -/
def Obligations.LinesHaveOneOwner : Prop :=
  ∀ s t : State, step s = .next t → s.move ≠ .reset →
    (∀ id, (lineWrites id t.history = lineWrites id s.history → t.line.get id = s.line.get id)
        ∧ (lineWrites id t.history ≠ lineWrites id s.history → s.serState = .running))
      ∧ (lineWrites .data t.history ≠ lineWrites .data s.history → s.move = .isr .chA)
      ∧ (lineWrites .latch t.history ≠ lineWrites .latch s.history → s.move = .isr .chB)
      ∧ (lineWrites .clock t.history ≠ lineWrites .clock s.history → s.move = .isr .chC ∨ s.move = .isr .chD)
      ∧ (lineWrites .finish t.history ≠ lineWrites .finish s.history →
          s.move = .isr .chD ∧ s.byteIndex.toNat = s.cfg.terminalCount)

/-- The idempotence property (R157, S11): in DONE, whatever events come and whatever any agent does, no line changes or
is written, the cursor stays, and DONE stays. -/
def Obligations.DoneStaysQuiet : Prop :=
  ∀ s t : State, s.serState = .done → step s = .next t → s.move ≠ .reset →
    t.serState = .done ∧ t.line = s.line ∧ t.byteIndex = s.byteIndex ∧ t.bitIndex = s.bitIndex
      ∧ ∀ id, lineWrites id t.history = lineWrites id s.history

/-- R68: IMAGE is written only by the foreground in RX_DATA and CMD only by the foreground in RX_CMD1 and RX_CMD2; every
other step leaves every byte as it read. -/
def Obligations.BuffersAreWrittenInTheirPhases : Prop :=
  ∀ s t : State, step s = .next t → s.move ≠ .reset →
    (¬ (s.move = .fg ∧ s.seq = .rxData) → ∀ a, t.readImage a = s.readImage a)
      ∧ (¬ (s.move = .fg ∧ s.seq.isLine = true) → ∀ a, t.readCmd a = s.readCmd a)

/-- R45 and R46: no step writes a parameter, and the history is append-only. (That it goes on over the platform's reset is
the model's choice, log entry 12.) -/
def Obligations.ParametersStayAndHistoryGrows : Prop :=
  ∀ s t : State, step s = .next t → t.cfg = s.cfg ∧ ∃ new, t.history = new ++ s.history

/-! Reset. -/

/-- R250 and R251: the state after reset. (The line levels, the cursor and the timer's registers are the spec's own
choices, D6, D7 and D35; the terminal count is 64, R8; the queues' capacities, otherwise open, are at least 1, R12, and the timing parameters, otherwise open, are ordered and fit
in TIMER_BITS, R10.) -/
def Obligations.ResetLeavesTheStatedValues : Prop :=
  let r := State.reset
  r.seq = .rxCmd1 ∧ r.fgTx = none ∧ r.handler = none ∧ r.bootFlag = false ∧ r.cmdLen = 0 ∧ r.dataCnt = 0
    ∧ r.byteIndex = 0 ∧ r.bitIndex = 0 ∧ r.serState = .idle ∧ r.tmrEn = false ∧ r.tmrNext = .chA
    ∧ r.tmrCount = 0 ∧ r.tmrPeriod = 0
    ∧ (∀ ch, r.tmrCC.get ch = 0 ∧ r.tmrClr.get ch = false ∧ r.tmrPend.get ch = false)
    ∧ r.line.data = .low ∧ r.line.clock = .high ∧ r.line.latch ≠ r.cfg.platform.latchActive
    ∧ r.line.finish ≠ r.cfg.platform.finishActive ∧ r.fault = .noFault ∧ r.rxq = [] ∧ r.txq = []
    ∧ r.cfg.terminalCount = 64 ∧ 1 ≤ r.cfg.platform.rxCap ∧ 1 ≤ r.cfg.platform.txCap
    ∧ 0 < r.cfg.platform.t1 ∧ r.cfg.platform.t1 < r.cfg.platform.t2 ∧ r.cfg.platform.t2 < r.cfg.platform.t3
    ∧ r.cfg.platform.t3 < r.cfg.platform.t4 ∧ r.cfg.platform.t4 < 2 ^ r.cfg.platform.timerBits

/-- R204 and R250: after a fault, where FAULT_POLICY is RESET, the platform's reset brings every element to its reset
value; under HALT it does not happen. (That the history goes on is the model's choice, log entry 12; that the agenda and
the model's counters go on is its choice, log entry 19; that only RESET allows the platform's reset is its deduction, log
entry 11; and that a reset move under HALT is a step that changes only the agenda is its choice, log entry 3.) -/
def Obligations.PlatformResetBeginsANewRun : Prop :=
  ∀ s : State, s.cfg.legal = true → s.move = .reset → s.fault ≠ .noFault →
    (s.cfg.platform.faultPolicy = .reset →
      step s = .next { State.resetWith s.cfg with
        history := s.history, agenda := s.afterMove.agenda, draws := s.afterMove.draws, resets := s.resets + 1 })
    ∧ (s.cfg.platform.faultPolicy = .halt → step s = .next s.afterMove)

/-- The state after reset meets every invariant stated below. -/
def Obligations.ResetMeetsTheInvariants : Prop :=
  MemoryInv State.reset ∧ RangeInv State.reset ∧ SequenceInv State.reset ∧ TimerWidthInv State.reset
    ∧ CursorInv State.reset ∧ PopulatedInv State.reset ∧ State.reset.cfg.legal = true

/-! Invariants. -/

/-- Every step keeps both byte spaces inside their index ranges (R43, R44, R69) and in canonical form. (The canonical form
is the model's choice, log entry 2.) -/
def Obligations.StepKeepsMemoryCanonical : Prop :=
  ∀ s t : State, MemoryInv s → step s = .next t → MemoryInv t

/-- Every step keeps the counters, the message index and the queues inside their ranges (R23, R25, R26, R42). -/
def Obligations.StepKeepsRanges : Prop :=
  ∀ s t : State, RangeInv s → step s = .next t → RangeInv t

/-- Every step keeps the timer's registers within TIMER_BITS (R32, R34, R37; that a value too wide leaves a free value of
that width is the model's choice, log entry 9). -/
def Obligations.StepKeepsTimerWidths : Prop :=
  ∀ s t : State, TimerWidthInv s → step s = .next t → TimerWidthInv t

/-- Every step keeps the foreground's phase, SER_STATE, the timer enable, the handler and the fault together as R130,
R150, R204 and R217 say. -/
def Obligations.StepKeepsTheSequence : Prop :=
  ∀ s t : State, SequenceInv s → step s = .next t → SequenceInv t

/-- Where the sequence's invariant holds, a step of a legal configuration always answers a next state: no operation that
step selects is refused or stopped, whatever the move and the bytes (R18 "Enabled when", R138; a disabled move answers
by the model's choice, log entry 3). -/
def Obligations.NoStepStopsInSequence : Prop :=
  ∀ s : State, SequenceInv s → s.cfg.legal = true → ∃ t, step s = .next t

/-- R30 under H-DEADLINE (R254): every step of the abstract model (log entry 6) keeps the cursor's invariants, so
BYTE_INDEX never passes TERMINAL_COUNT, and it reaches it only with BIT_INDEX = 0. -/
def Obligations.StepKeepsTheCursorUnderDeadline : Prop :=
  ∀ s t : State, CursorInv s → s.cfg.tickLevel = false → HDeadline s → step s = .next t → CursorInv t

/-- R162 and R256. From the cursor's invariants (kept under H-DEADLINE, R254) no step raises IMAGE_OOB; every step keeps
IMAGE populated, so that every index below DATA_CNT holds a written byte and DATA_CNT is IMAGE_SIZE once RX_DATA is over;
and therefore a running serializer's EVT_A finds a written byte at every index of IMAGE. (The spec derives R162 from
other rules; an unwritten index as one with no entry is the model's, log entry 2.) -/
def Obligations.NoOutOfRangeReadUnderDeadline : Prop :=
  (∀ s t : State, CursorInv s → s.fault = .noFault → step s = .next t → t.fault ≠ .imageOob)
    ∧ (∀ s t : State, PopulatedInv s → step s = .next t → PopulatedInv t)
    ∧ (∀ s : State, SequenceInv s → PopulatedInv s → s.fault = .noFault → s.serState = .running →
        s.byteIndex.toNat < imageSize → Memory.read s.image s.byteIndex.toNat ≠ none)

/-! Periods. The moves of a period are the model's reading of H-DEADLINE in the abstract timer (log entries 1 and 6); the
spec derives these rules from others. -/

/-- R163: from the start, p periods under H-DEADLINE leave the cursor at (⌊p/8⌋, p mod 8), and the p-th EVT_D terminates
exactly where p = 8 · TERMINAL_COUNT. (The moves of a period are the model's reading of H-DEADLINE in the abstract timer,
log entries 1 and 6.) -/
def Obligations.PeriodsMoveTheCursorAndTerminate : Prop :=
  ∀ (s : State) (p : Nat) (rest : List Move), AtPeriodStart s → s.byteIndex = 0 → s.bitIndex = 0 →
    p ≤ 8 * s.cfg.terminalCount → s.agenda = periods p ++ rest →
    ∃ t, Host.Core.run core (8 * p) s = .next t ∧ t.agenda = rest ∧ t.fault = .noFault
      ∧ t.serState = .running ∧ t.noPending ∧ t.tmrNext = .chA
      ∧ t.byteIndex.toNat = p / 8 ∧ t.bitIndex.toNat = p % 8
      ∧ (t.handler = if p = 8 * s.cfg.terminalCount then some 0 else none) ∧ SameMemory s t

/-- R165 and R166: after period p the latch is at its asserted level exactly where 32 divides p, the clock is HIGH, and
FINISH has been asserted exactly where the run has terminated. (The moves of a period are the model's reading of
H-DEADLINE in the abstract timer, log entries 1 and 6.) -/
def Obligations.PeriodsLeaveTheirLevels : Prop :=
  ∀ (s : State) (p : Nat) (rest : List Move), AtPeriodStart s → s.byteIndex = 0 → s.bitIndex = 0 →
    0 < p → p ≤ 8 * s.cfg.terminalCount → s.agenda = periods p ++ rest →
    ∃ t, Host.Core.run core (8 * p) s = .next t
      ∧ (t.line.latch = s.cfg.platform.latchActive ↔ p % 32 = 0) ∧ t.line.clock = .high
      ∧ t.line.finish = (if p = 8 * s.cfg.terminalCount then s.cfg.platform.finishActive else s.line.finish)

/-- R61 and R159 (S7): the levels written to DATA over p periods are the first p bits of the image, bytes ascending and
least-significant bit first, each inverted; LATCH is written once and CLOCK LOW then HIGH in every period. (The moves of a
period are the model's reading of H-DEADLINE in the abstract timer, log entries 1 and 6.) -/
def Obligations.PeriodsEmitTheImageBitsInOrder : Prop :=
  ∀ (s : State) (p : Nat) (rest : List Move), AtPeriodStart s → s.byteIndex = 0 → s.bitIndex = 0 →
    p ≤ 8 * s.cfg.terminalCount → s.agenda = periods p ++ rest →
    ∃ t, Host.Core.run core (8 * p) s = .next t
      ∧ lineWrites .data t.history
          = lineWrites .data s.history
            ++ (List.range p).map (fun n => if (s.readImage (n / 8)).getLsbD (n % 8) then Level.low else Level.high)
      ∧ (lineWrites .latch t.history).length = (lineWrites .latch s.history).length + p
      ∧ lineWrites .clock t.history
          = lineWrites .clock s.history ++ (List.replicate p [Level.low, Level.high]).flatten
end

