-- ==== Sys2Proof/Laws/Config.lean ====
section
/-! SUPPORT. The timing parameters meet R10's constraint by form, and every choice that R10 allows has its form. -/

namespace Sys2Proof

/-- Every platform meets R10's constraint, `0 < T1 < T2 < T3 < T4 < 2^TIMER_BITS`. -/
theorem Platform.timing_bounds (p : Platform) :
    0 < p.t1 ∧ p.t1 < p.t2 ∧ p.t2 < p.t3 ∧ p.t3 < p.t4 ∧ p.t4 < 2 ^ p.timerBits := by
  refine ⟨?_, ?_, ?_, ?_, ?_⟩
  · simp [Platform.t1]
  · simp only [Platform.t2]; omega
  · simp only [Platform.t3]; omega
  · simp only [Platform.t4]; omega
  · exact Nat.lt_of_lt_of_le Nat.lt_log2_self (Nat.pow_le_pow_right (by decide) (Nat.le_add_right _ _))

@[simp] theorem Platform.timing_holds (p : Platform) : p.timingLegal = true := by
  obtain ⟨h1, h2, h3, h4, h5⟩ := p.timing_bounds
  simp [Platform.timingLegal, *]

/-- No choice of timing parameters that R10 allows is left out. -/
theorem Platform.timing_complete (p : Platform) {a b c d bits : Nat} (h1 : 0 < a) (h2 : a < b) (h3 : b < c)
    (h4 : c < d) (h5 : d < 2 ^ bits) :
    ∃ q : Platform, q.t1 = a ∧ q.t2 = b ∧ q.t3 = c ∧ q.t4 = d ∧ q.timerBits = bits := by
  have hb : Nat.log2 d < bits := (Nat.log2_lt (by omega)).mpr h5
  let q : Platform := { p with
    t1BeyondFirst := a - 1, gapAB := b - a - 1, gapBC := c - b - 1, gapCD := d - c - 1
    bitsBeyondT4 := bits - (Nat.log2 d + 1) }
  have e1 : q.t1 = a := by simp only [q, Platform.t1]; omega
  have e2 : q.t2 = b := by simp only [Platform.t2, e1]; simp only [q]; omega
  have e3 : q.t3 = c := by simp only [Platform.t3, e2]; simp only [q]; omega
  have e4 : q.t4 = d := by simp only [Platform.t4, e3]; simp only [q]; omega
  refine ⟨q, e1, e2, e3, e4, ?_⟩
  simp only [Platform.timerBits, e4]
  simp only [q]
  omega

end Sys2Proof
end

