-- ==== Sys2Proof/Laws/Memory.lean ====
section
/-! SUPPORT. The laws of the byte spaces: a read after a write, and the canonical form, which a write keeps. -/

namespace Sys2Proof.Machine

theorem Memory.read_write (m : Memory) (a i : Nat) (v : Byte) :
    Memory.read (Memory.write m a v) i = if i = a then some v else Memory.read m i := by
  induction m with
  | nil => simp [Memory.write, Memory.read]
  | cons c rest ih =>
    obtain ⟨k, x⟩ := c
    simp only [Memory.write]
    split
    · simp [Memory.read]
    · split
      · subst_vars
        simp only [Memory.read]
        split <;> rfl
      · simp only [Memory.read, ih]
        by_cases h1 : i = k
        · subst h1
          simp only [↓reduceIte]
          rw [if_neg (by omega)]
        · simp [h1]

theorem Memory.risesFrom_mono {lo lo' : Nat} {m : Memory} (h : lo' ≤ lo)
    (hm : Memory.risesFrom lo m = true) : Memory.risesFrom lo' m = true := by
  cases m with
  | nil => rfl
  | cons c rest =>
    simp only [Memory.risesFrom, Bool.and_eq_true, decide_eq_true_eq] at *
    exact ⟨by omega, hm.2⟩

theorem Memory.risesFrom_write {m : Memory} {lo a : Nat} (v : Byte) (ha : lo ≤ a)
    (hm : Memory.risesFrom lo m = true) : Memory.risesFrom lo (Memory.write m a v) = true := by
  induction m generalizing lo with
  | nil => simp [Memory.write, Memory.risesFrom, ha]
  | cons c rest ih =>
    obtain ⟨k, x⟩ := c
    simp only [Memory.risesFrom, Bool.and_eq_true, decide_eq_true_eq] at hm
    simp only [Memory.write]
    split
    · simp only [Memory.risesFrom, Bool.and_eq_true, decide_eq_true_eq]
      exact ⟨ha, by omega, hm.2⟩
    · split
      · subst_vars
        simp only [Memory.risesFrom, Bool.and_eq_true, decide_eq_true_eq]
        exact hm
      · simp only [Memory.risesFrom, Bool.and_eq_true, decide_eq_true_eq]
        exact ⟨hm.1, ih (by omega) hm.2⟩

/-- A write keeps the canonical form. -/
theorem Memory.wf_write {m : Memory} (a : Nat) (v : Byte) (hm : Memory.wf m = true) :
    Memory.wf (Memory.write m a v) = true :=
  Memory.risesFrom_write v (Nat.zero_le a) hm

/-- A write inside the range keeps every index inside it. -/
theorem Memory.below_write {m : Memory} {size a : Nat} (v : Byte) (ha : a < size)
    (hm : Memory.below size m = true) : Memory.below size (Memory.write m a v) = true := by
  induction m with
  | nil => simp [Memory.write, Memory.below, ha]
  | cons c rest ih =>
    obtain ⟨k, x⟩ := c
    simp only [Memory.below, List.all_cons, Bool.and_eq_true, decide_eq_true_eq] at hm ih
    simp only [Memory.write]
    split
    · simp only [Memory.below, List.all_cons, Bool.and_eq_true, decide_eq_true_eq]
      exact ⟨ha, hm⟩
    · split
      · simp only [Memory.below, List.all_cons, Bool.and_eq_true, decide_eq_true_eq]
        exact ⟨ha, hm.2⟩
      · simp only [Memory.below, List.all_cons, Bool.and_eq_true, decide_eq_true_eq]
        exact ⟨hm.1, ih hm.2⟩

@[simp] theorem Memory.wf_nil : Memory.wf [] = true := rfl
@[simp] theorem Memory.below_nil (size : Nat) : Memory.below size [] = true := rfl

/-- A read of IMAGE sees IMAGE and the number of resets only. -/
theorem State.readImage_congr {s t : State} (hi : t.image = s.image) (hr : t.resets = s.resets) (a : Nat) :
    t.readImage a = s.readImage a := by
  simp only [State.readImage, hi, hr]

/-- A read of CMD sees CMD and the number of resets only. -/
theorem State.readCmd_congr {s t : State} (hc : t.cmd = s.cmd) (hr : t.resets = s.resets) (a : Nat) :
    t.readCmd a = s.readCmd a := by
  simp only [State.readCmd, hc, hr]

/-- A read of IMAGE where IMAGE is another state's with one byte written. -/
theorem State.readImage_of_write {s t : State} {i : Nat} {v : Byte} (hi : t.image = Memory.write s.image i v)
    (hr : t.resets = s.resets) (a : Nat) : t.readImage a = if a = i then v else s.readImage a := by
  simp only [State.readImage, hi, hr, Memory.read_write]
  by_cases h : a = i <;> simp [h]

/-- A read of CMD where CMD is another state's with one byte written. -/
theorem State.readCmd_of_write {s t : State} {i : Nat} {v : Byte} (hc : t.cmd = Memory.write s.cmd i v)
    (hr : t.resets = s.resets) (a : Nat) : t.readCmd a = if a = i then v else s.readCmd a := by
  simp only [State.readCmd, hc, hr, Memory.read_write]
  by_cases h : a = i <;> simp [h]

end Sys2Proof.Machine
end

