-- ==== Sys2Proof/Laws/State.lean ====
section
/-! SUPPORT. For each named update of State, what every field holds after it: one lemma for each field, so that no later
proof unfolds a record update. -/

namespace Sys2Proof.Machine

/-! `popRx` -/

@[simp] theorem State.popRx_cfg (s : State) : s.popRx.cfg = s.cfg := rfl
@[simp] theorem State.popRx_seq (s : State) : s.popRx.seq = s.seq := rfl
@[simp] theorem State.popRx_fgTx (s : State) : s.popRx.fgTx = s.fgTx := rfl
@[simp] theorem State.popRx_bootFlag (s : State) : s.popRx.bootFlag = s.bootFlag := rfl
@[simp] theorem State.popRx_cmdLen (s : State) : s.popRx.cmdLen = s.cmdLen := rfl
@[simp] theorem State.popRx_dataCnt (s : State) : s.popRx.dataCnt = s.dataCnt := rfl
@[simp] theorem State.popRx_serState (s : State) : s.popRx.serState = s.serState := rfl
@[simp] theorem State.popRx_byteIndex (s : State) : s.popRx.byteIndex = s.byteIndex := rfl
@[simp] theorem State.popRx_bitIndex (s : State) : s.popRx.bitIndex = s.bitIndex := rfl
@[simp] theorem State.popRx_tmrEn (s : State) : s.popRx.tmrEn = s.tmrEn := rfl
@[simp] theorem State.popRx_tmrCC (s : State) : s.popRx.tmrCC = s.tmrCC := rfl
@[simp] theorem State.popRx_tmrClr (s : State) : s.popRx.tmrClr = s.tmrClr := rfl
@[simp] theorem State.popRx_tmrPeriod (s : State) : s.popRx.tmrPeriod = s.tmrPeriod := rfl
@[simp] theorem State.popRx_tmrNext (s : State) : s.popRx.tmrNext = s.tmrNext := rfl
@[simp] theorem State.popRx_tmrPend (s : State) : s.popRx.tmrPend = s.tmrPend := rfl
@[simp] theorem State.popRx_tmrCount (s : State) : s.popRx.tmrCount = s.tmrCount := rfl
@[simp] theorem State.popRx_handler (s : State) : s.popRx.handler = s.handler := rfl
@[simp] theorem State.popRx_line (s : State) : s.popRx.line = s.line := rfl
@[simp] theorem State.popRx_fault (s : State) : s.popRx.fault = s.fault := rfl
@[simp] theorem State.popRx_rxq (s : State) : s.popRx.rxq = s.rxq.tail := rfl
@[simp] theorem State.popRx_txq (s : State) : s.popRx.txq = s.txq := rfl
@[simp] theorem State.popRx_image (s : State) : s.popRx.image = s.image := rfl
@[simp] theorem State.popRx_cmd (s : State) : s.popRx.cmd = s.cmd := rfl
@[simp] theorem State.popRx_history (s : State) : s.popRx.history = s.history := rfl
@[simp] theorem State.popRx_agenda (s : State) : s.popRx.agenda = s.agenda := rfl
@[simp] theorem State.popRx_draws (s : State) : s.popRx.draws = s.draws := rfl
@[simp] theorem State.popRx_resets (s : State) : s.popRx.resets = s.resets := rfl

/-! `txByte` -/

@[simp] theorem State.txByte_cfg (s : State) (b : Byte) : (s.txByte b).cfg = s.cfg := rfl
@[simp] theorem State.txByte_seq (s : State) (b : Byte) : (s.txByte b).seq = s.seq := rfl
@[simp] theorem State.txByte_fgTx (s : State) (b : Byte) : (s.txByte b).fgTx = s.fgTx := rfl
@[simp] theorem State.txByte_bootFlag (s : State) (b : Byte) : (s.txByte b).bootFlag = s.bootFlag := rfl
@[simp] theorem State.txByte_cmdLen (s : State) (b : Byte) : (s.txByte b).cmdLen = s.cmdLen := rfl
@[simp] theorem State.txByte_dataCnt (s : State) (b : Byte) : (s.txByte b).dataCnt = s.dataCnt := rfl
@[simp] theorem State.txByte_serState (s : State) (b : Byte) : (s.txByte b).serState = s.serState := rfl
@[simp] theorem State.txByte_byteIndex (s : State) (b : Byte) : (s.txByte b).byteIndex = s.byteIndex := rfl
@[simp] theorem State.txByte_bitIndex (s : State) (b : Byte) : (s.txByte b).bitIndex = s.bitIndex := rfl
@[simp] theorem State.txByte_tmrEn (s : State) (b : Byte) : (s.txByte b).tmrEn = s.tmrEn := rfl
@[simp] theorem State.txByte_tmrCC (s : State) (b : Byte) : (s.txByte b).tmrCC = s.tmrCC := rfl
@[simp] theorem State.txByte_tmrClr (s : State) (b : Byte) : (s.txByte b).tmrClr = s.tmrClr := rfl
@[simp] theorem State.txByte_tmrPeriod (s : State) (b : Byte) : (s.txByte b).tmrPeriod = s.tmrPeriod := rfl
@[simp] theorem State.txByte_tmrNext (s : State) (b : Byte) : (s.txByte b).tmrNext = s.tmrNext := rfl
@[simp] theorem State.txByte_tmrPend (s : State) (b : Byte) : (s.txByte b).tmrPend = s.tmrPend := rfl
@[simp] theorem State.txByte_tmrCount (s : State) (b : Byte) : (s.txByte b).tmrCount = s.tmrCount := rfl
@[simp] theorem State.txByte_handler (s : State) (b : Byte) : (s.txByte b).handler = s.handler := rfl
@[simp] theorem State.txByte_line (s : State) (b : Byte) : (s.txByte b).line = s.line := rfl
@[simp] theorem State.txByte_fault (s : State) (b : Byte) : (s.txByte b).fault = s.fault := rfl
@[simp] theorem State.txByte_rxq (s : State) (b : Byte) : (s.txByte b).rxq = s.rxq := rfl
@[simp] theorem State.txByte_txq (s : State) (b : Byte) : (s.txByte b).txq = s.txq ++ [b] := rfl
@[simp] theorem State.txByte_image (s : State) (b : Byte) : (s.txByte b).image = s.image := rfl
@[simp] theorem State.txByte_cmd (s : State) (b : Byte) : (s.txByte b).cmd = s.cmd := rfl
@[simp] theorem State.txByte_history (s : State) (b : Byte) : (s.txByte b).history = s.history := rfl
@[simp] theorem State.txByte_agenda (s : State) (b : Byte) : (s.txByte b).agenda = s.agenda := rfl
@[simp] theorem State.txByte_draws (s : State) (b : Byte) : (s.txByte b).draws = s.draws := rfl
@[simp] theorem State.txByte_resets (s : State) (b : Byte) : (s.txByte b).resets = s.resets := rfl

/-! `writeImage` -/

@[simp] theorem State.writeImage_cfg (s : State) (i : Nat) (v : Byte) : (s.writeImage i v).cfg = s.cfg := rfl
@[simp] theorem State.writeImage_seq (s : State) (i : Nat) (v : Byte) : (s.writeImage i v).seq = s.seq := rfl
@[simp] theorem State.writeImage_fgTx (s : State) (i : Nat) (v : Byte) : (s.writeImage i v).fgTx = s.fgTx := rfl
@[simp] theorem State.writeImage_bootFlag (s : State) (i : Nat) (v : Byte) :
    (s.writeImage i v).bootFlag = s.bootFlag := rfl
@[simp] theorem State.writeImage_cmdLen (s : State) (i : Nat) (v : Byte) : (s.writeImage i v).cmdLen = s.cmdLen := rfl
@[simp] theorem State.writeImage_dataCnt (s : State) (i : Nat) (v : Byte) :
    (s.writeImage i v).dataCnt = s.dataCnt := rfl
@[simp] theorem State.writeImage_serState (s : State) (i : Nat) (v : Byte) :
    (s.writeImage i v).serState = s.serState := rfl
@[simp] theorem State.writeImage_byteIndex (s : State) (i : Nat) (v : Byte) :
    (s.writeImage i v).byteIndex = s.byteIndex := rfl
@[simp] theorem State.writeImage_bitIndex (s : State) (i : Nat) (v : Byte) :
    (s.writeImage i v).bitIndex = s.bitIndex := rfl
@[simp] theorem State.writeImage_tmrEn (s : State) (i : Nat) (v : Byte) : (s.writeImage i v).tmrEn = s.tmrEn := rfl
@[simp] theorem State.writeImage_tmrCC (s : State) (i : Nat) (v : Byte) : (s.writeImage i v).tmrCC = s.tmrCC := rfl
@[simp] theorem State.writeImage_tmrClr (s : State) (i : Nat) (v : Byte) : (s.writeImage i v).tmrClr = s.tmrClr := rfl
@[simp] theorem State.writeImage_tmrPeriod (s : State) (i : Nat) (v : Byte) :
    (s.writeImage i v).tmrPeriod = s.tmrPeriod := rfl
@[simp] theorem State.writeImage_tmrNext (s : State) (i : Nat) (v : Byte) :
    (s.writeImage i v).tmrNext = s.tmrNext := rfl
@[simp] theorem State.writeImage_tmrPend (s : State) (i : Nat) (v : Byte) :
    (s.writeImage i v).tmrPend = s.tmrPend := rfl
@[simp] theorem State.writeImage_tmrCount (s : State) (i : Nat) (v : Byte) :
    (s.writeImage i v).tmrCount = s.tmrCount := rfl
@[simp] theorem State.writeImage_handler (s : State) (i : Nat) (v : Byte) :
    (s.writeImage i v).handler = s.handler := rfl
@[simp] theorem State.writeImage_line (s : State) (i : Nat) (v : Byte) : (s.writeImage i v).line = s.line := rfl
@[simp] theorem State.writeImage_fault (s : State) (i : Nat) (v : Byte) : (s.writeImage i v).fault = s.fault := rfl
@[simp] theorem State.writeImage_rxq (s : State) (i : Nat) (v : Byte) : (s.writeImage i v).rxq = s.rxq := rfl
@[simp] theorem State.writeImage_txq (s : State) (i : Nat) (v : Byte) : (s.writeImage i v).txq = s.txq := rfl
@[simp] theorem State.writeImage_image (s : State) (i : Nat) (v : Byte) :
    (s.writeImage i v).image = Memory.write s.image i v := rfl
@[simp] theorem State.writeImage_cmd (s : State) (i : Nat) (v : Byte) : (s.writeImage i v).cmd = s.cmd := rfl
@[simp] theorem State.writeImage_history (s : State) (i : Nat) (v : Byte) :
    (s.writeImage i v).history = s.history := rfl
@[simp] theorem State.writeImage_agenda (s : State) (i : Nat) (v : Byte) : (s.writeImage i v).agenda = s.agenda := rfl
@[simp] theorem State.writeImage_draws (s : State) (i : Nat) (v : Byte) : (s.writeImage i v).draws = s.draws := rfl
@[simp] theorem State.writeImage_resets (s : State) (i : Nat) (v : Byte) : (s.writeImage i v).resets = s.resets := rfl

/-! `writeCmd` -/

@[simp] theorem State.writeCmd_cfg (s : State) (i : Nat) (v : Byte) : (s.writeCmd i v).cfg = s.cfg := rfl
@[simp] theorem State.writeCmd_seq (s : State) (i : Nat) (v : Byte) : (s.writeCmd i v).seq = s.seq := rfl
@[simp] theorem State.writeCmd_fgTx (s : State) (i : Nat) (v : Byte) : (s.writeCmd i v).fgTx = s.fgTx := rfl
@[simp] theorem State.writeCmd_bootFlag (s : State) (i : Nat) (v : Byte) :
    (s.writeCmd i v).bootFlag = s.bootFlag := rfl
@[simp] theorem State.writeCmd_cmdLen (s : State) (i : Nat) (v : Byte) : (s.writeCmd i v).cmdLen = s.cmdLen := rfl
@[simp] theorem State.writeCmd_dataCnt (s : State) (i : Nat) (v : Byte) : (s.writeCmd i v).dataCnt = s.dataCnt := rfl
@[simp] theorem State.writeCmd_serState (s : State) (i : Nat) (v : Byte) :
    (s.writeCmd i v).serState = s.serState := rfl
@[simp] theorem State.writeCmd_byteIndex (s : State) (i : Nat) (v : Byte) :
    (s.writeCmd i v).byteIndex = s.byteIndex := rfl
@[simp] theorem State.writeCmd_bitIndex (s : State) (i : Nat) (v : Byte) :
    (s.writeCmd i v).bitIndex = s.bitIndex := rfl
@[simp] theorem State.writeCmd_tmrEn (s : State) (i : Nat) (v : Byte) : (s.writeCmd i v).tmrEn = s.tmrEn := rfl
@[simp] theorem State.writeCmd_tmrCC (s : State) (i : Nat) (v : Byte) : (s.writeCmd i v).tmrCC = s.tmrCC := rfl
@[simp] theorem State.writeCmd_tmrClr (s : State) (i : Nat) (v : Byte) : (s.writeCmd i v).tmrClr = s.tmrClr := rfl
@[simp] theorem State.writeCmd_tmrPeriod (s : State) (i : Nat) (v : Byte) :
    (s.writeCmd i v).tmrPeriod = s.tmrPeriod := rfl
@[simp] theorem State.writeCmd_tmrNext (s : State) (i : Nat) (v : Byte) : (s.writeCmd i v).tmrNext = s.tmrNext := rfl
@[simp] theorem State.writeCmd_tmrPend (s : State) (i : Nat) (v : Byte) : (s.writeCmd i v).tmrPend = s.tmrPend := rfl
@[simp] theorem State.writeCmd_tmrCount (s : State) (i : Nat) (v : Byte) :
    (s.writeCmd i v).tmrCount = s.tmrCount := rfl
@[simp] theorem State.writeCmd_handler (s : State) (i : Nat) (v : Byte) : (s.writeCmd i v).handler = s.handler := rfl
@[simp] theorem State.writeCmd_line (s : State) (i : Nat) (v : Byte) : (s.writeCmd i v).line = s.line := rfl
@[simp] theorem State.writeCmd_fault (s : State) (i : Nat) (v : Byte) : (s.writeCmd i v).fault = s.fault := rfl
@[simp] theorem State.writeCmd_rxq (s : State) (i : Nat) (v : Byte) : (s.writeCmd i v).rxq = s.rxq := rfl
@[simp] theorem State.writeCmd_txq (s : State) (i : Nat) (v : Byte) : (s.writeCmd i v).txq = s.txq := rfl
@[simp] theorem State.writeCmd_image (s : State) (i : Nat) (v : Byte) : (s.writeCmd i v).image = s.image := rfl
@[simp] theorem State.writeCmd_cmd (s : State) (i : Nat) (v : Byte) :
    (s.writeCmd i v).cmd = Memory.write s.cmd i v := rfl
@[simp] theorem State.writeCmd_history (s : State) (i : Nat) (v : Byte) : (s.writeCmd i v).history = s.history := rfl
@[simp] theorem State.writeCmd_agenda (s : State) (i : Nat) (v : Byte) : (s.writeCmd i v).agenda = s.agenda := rfl
@[simp] theorem State.writeCmd_draws (s : State) (i : Nat) (v : Byte) : (s.writeCmd i v).draws = s.draws := rfl
@[simp] theorem State.writeCmd_resets (s : State) (i : Nat) (v : Byte) : (s.writeCmd i v).resets = s.resets := rfl

/-! `beginSend` -/

@[simp] theorem State.beginSend_cfg (s : State) (m : Msg) : (s.beginSend m).cfg = s.cfg := rfl
@[simp] theorem State.beginSend_seq (s : State) (m : Msg) : (s.beginSend m).seq = s.seq := rfl
@[simp] theorem State.beginSend_fgTx (s : State) (m : Msg) : (s.beginSend m).fgTx = some ⟨m, 0⟩ := rfl
@[simp] theorem State.beginSend_bootFlag (s : State) (m : Msg) : (s.beginSend m).bootFlag = s.bootFlag := rfl
@[simp] theorem State.beginSend_cmdLen (s : State) (m : Msg) : (s.beginSend m).cmdLen = s.cmdLen := rfl
@[simp] theorem State.beginSend_dataCnt (s : State) (m : Msg) : (s.beginSend m).dataCnt = s.dataCnt := rfl
@[simp] theorem State.beginSend_serState (s : State) (m : Msg) : (s.beginSend m).serState = s.serState := rfl
@[simp] theorem State.beginSend_byteIndex (s : State) (m : Msg) : (s.beginSend m).byteIndex = s.byteIndex := rfl
@[simp] theorem State.beginSend_bitIndex (s : State) (m : Msg) : (s.beginSend m).bitIndex = s.bitIndex := rfl
@[simp] theorem State.beginSend_tmrEn (s : State) (m : Msg) : (s.beginSend m).tmrEn = s.tmrEn := rfl
@[simp] theorem State.beginSend_tmrCC (s : State) (m : Msg) : (s.beginSend m).tmrCC = s.tmrCC := rfl
@[simp] theorem State.beginSend_tmrClr (s : State) (m : Msg) : (s.beginSend m).tmrClr = s.tmrClr := rfl
@[simp] theorem State.beginSend_tmrPeriod (s : State) (m : Msg) : (s.beginSend m).tmrPeriod = s.tmrPeriod := rfl
@[simp] theorem State.beginSend_tmrNext (s : State) (m : Msg) : (s.beginSend m).tmrNext = s.tmrNext := rfl
@[simp] theorem State.beginSend_tmrPend (s : State) (m : Msg) : (s.beginSend m).tmrPend = s.tmrPend := rfl
@[simp] theorem State.beginSend_tmrCount (s : State) (m : Msg) : (s.beginSend m).tmrCount = s.tmrCount := rfl
@[simp] theorem State.beginSend_handler (s : State) (m : Msg) : (s.beginSend m).handler = s.handler := rfl
@[simp] theorem State.beginSend_line (s : State) (m : Msg) : (s.beginSend m).line = s.line := rfl
@[simp] theorem State.beginSend_fault (s : State) (m : Msg) : (s.beginSend m).fault = s.fault := rfl
@[simp] theorem State.beginSend_rxq (s : State) (m : Msg) : (s.beginSend m).rxq = s.rxq := rfl
@[simp] theorem State.beginSend_txq (s : State) (m : Msg) : (s.beginSend m).txq = s.txq := rfl
@[simp] theorem State.beginSend_image (s : State) (m : Msg) : (s.beginSend m).image = s.image := rfl
@[simp] theorem State.beginSend_cmd (s : State) (m : Msg) : (s.beginSend m).cmd = s.cmd := rfl
@[simp] theorem State.beginSend_history (s : State) (m : Msg) : (s.beginSend m).history = s.history := rfl
@[simp] theorem State.beginSend_agenda (s : State) (m : Msg) : (s.beginSend m).agenda = s.agenda := rfl
@[simp] theorem State.beginSend_draws (s : State) (m : Msg) : (s.beginSend m).draws = s.draws := rfl
@[simp] theorem State.beginSend_resets (s : State) (m : Msg) : (s.beginSend m).resets = s.resets := rfl

/-! `setLine` -/

@[simp] theorem State.setLine_cfg (s : State) (id : LineId) (l : Level) (ev : Option Chan) :
    (s.setLine id l ev).cfg = s.cfg := rfl
@[simp] theorem State.setLine_seq (s : State) (id : LineId) (l : Level) (ev : Option Chan) :
    (s.setLine id l ev).seq = s.seq := rfl
@[simp] theorem State.setLine_fgTx (s : State) (id : LineId) (l : Level) (ev : Option Chan) :
    (s.setLine id l ev).fgTx = s.fgTx := rfl
@[simp] theorem State.setLine_bootFlag (s : State) (id : LineId) (l : Level) (ev : Option Chan) :
    (s.setLine id l ev).bootFlag = s.bootFlag := rfl
@[simp] theorem State.setLine_cmdLen (s : State) (id : LineId) (l : Level) (ev : Option Chan) :
    (s.setLine id l ev).cmdLen = s.cmdLen := rfl
@[simp] theorem State.setLine_dataCnt (s : State) (id : LineId) (l : Level) (ev : Option Chan) :
    (s.setLine id l ev).dataCnt = s.dataCnt := rfl
@[simp] theorem State.setLine_serState (s : State) (id : LineId) (l : Level) (ev : Option Chan) :
    (s.setLine id l ev).serState = s.serState := rfl
@[simp] theorem State.setLine_byteIndex (s : State) (id : LineId) (l : Level) (ev : Option Chan) :
    (s.setLine id l ev).byteIndex = s.byteIndex := rfl
@[simp] theorem State.setLine_bitIndex (s : State) (id : LineId) (l : Level) (ev : Option Chan) :
    (s.setLine id l ev).bitIndex = s.bitIndex := rfl
@[simp] theorem State.setLine_tmrEn (s : State) (id : LineId) (l : Level) (ev : Option Chan) :
    (s.setLine id l ev).tmrEn = s.tmrEn := rfl
@[simp] theorem State.setLine_tmrCC (s : State) (id : LineId) (l : Level) (ev : Option Chan) :
    (s.setLine id l ev).tmrCC = s.tmrCC := rfl
@[simp] theorem State.setLine_tmrClr (s : State) (id : LineId) (l : Level) (ev : Option Chan) :
    (s.setLine id l ev).tmrClr = s.tmrClr := rfl
@[simp] theorem State.setLine_tmrPeriod (s : State) (id : LineId) (l : Level) (ev : Option Chan) :
    (s.setLine id l ev).tmrPeriod = s.tmrPeriod := rfl
@[simp] theorem State.setLine_tmrNext (s : State) (id : LineId) (l : Level) (ev : Option Chan) :
    (s.setLine id l ev).tmrNext = s.tmrNext := rfl
@[simp] theorem State.setLine_tmrPend (s : State) (id : LineId) (l : Level) (ev : Option Chan) :
    (s.setLine id l ev).tmrPend = s.tmrPend := rfl
@[simp] theorem State.setLine_tmrCount (s : State) (id : LineId) (l : Level) (ev : Option Chan) :
    (s.setLine id l ev).tmrCount = s.tmrCount := rfl
@[simp] theorem State.setLine_handler (s : State) (id : LineId) (l : Level) (ev : Option Chan) :
    (s.setLine id l ev).handler = s.handler := rfl
@[simp] theorem State.setLine_line (s : State) (id : LineId) (l : Level) (ev : Option Chan) :
    (s.setLine id l ev).line = s.line.set id l := rfl
@[simp] theorem State.setLine_fault (s : State) (id : LineId) (l : Level) (ev : Option Chan) :
    (s.setLine id l ev).fault = s.fault := rfl
@[simp] theorem State.setLine_rxq (s : State) (id : LineId) (l : Level) (ev : Option Chan) :
    (s.setLine id l ev).rxq = s.rxq := rfl
@[simp] theorem State.setLine_txq (s : State) (id : LineId) (l : Level) (ev : Option Chan) :
    (s.setLine id l ev).txq = s.txq := rfl
@[simp] theorem State.setLine_image (s : State) (id : LineId) (l : Level) (ev : Option Chan) :
    (s.setLine id l ev).image = s.image := rfl
@[simp] theorem State.setLine_cmd (s : State) (id : LineId) (l : Level) (ev : Option Chan) :
    (s.setLine id l ev).cmd = s.cmd := rfl
@[simp] theorem State.setLine_history (s : State) (id : LineId) (l : Level) (ev : Option Chan) :
    (s.setLine id l ev).history = .lineWrite id l ev :: s.history := rfl
@[simp] theorem State.setLine_agenda (s : State) (id : LineId) (l : Level) (ev : Option Chan) :
    (s.setLine id l ev).agenda = s.agenda := rfl
@[simp] theorem State.setLine_draws (s : State) (id : LineId) (l : Level) (ev : Option Chan) :
    (s.setLine id l ev).draws = s.draws := rfl
@[simp] theorem State.setLine_resets (s : State) (id : LineId) (l : Level) (ev : Option Chan) :
    (s.setLine id l ev).resets = s.resets := rfl

/-! `timerConfigure` -/

@[simp] theorem State.timerConfigure_cfg (s : State) (p : Nat) : (s.timerConfigure p).cfg = s.cfg := rfl
@[simp] theorem State.timerConfigure_seq (s : State) (p : Nat) : (s.timerConfigure p).seq = s.seq := rfl
@[simp] theorem State.timerConfigure_fgTx (s : State) (p : Nat) : (s.timerConfigure p).fgTx = s.fgTx := rfl
@[simp] theorem State.timerConfigure_bootFlag (s : State) (p : Nat) :
    (s.timerConfigure p).bootFlag = s.bootFlag := rfl
@[simp] theorem State.timerConfigure_cmdLen (s : State) (p : Nat) : (s.timerConfigure p).cmdLen = s.cmdLen := rfl
@[simp] theorem State.timerConfigure_dataCnt (s : State) (p : Nat) : (s.timerConfigure p).dataCnt = s.dataCnt := rfl
@[simp] theorem State.timerConfigure_serState (s : State) (p : Nat) :
    (s.timerConfigure p).serState = s.serState := rfl
@[simp] theorem State.timerConfigure_byteIndex (s : State) (p : Nat) :
    (s.timerConfigure p).byteIndex = s.byteIndex := rfl
@[simp] theorem State.timerConfigure_bitIndex (s : State) (p : Nat) :
    (s.timerConfigure p).bitIndex = s.bitIndex := rfl
@[simp] theorem State.timerConfigure_tmrEn (s : State) (p : Nat) : (s.timerConfigure p).tmrEn = s.tmrEn := rfl
@[simp] theorem State.timerConfigure_tmrCC (s : State) (p : Nat) : (s.timerConfigure p).tmrCC = s.tmrCC := rfl
@[simp] theorem State.timerConfigure_tmrClr (s : State) (p : Nat) : (s.timerConfigure p).tmrClr = s.tmrClr := rfl
@[simp] theorem State.timerConfigure_tmrPeriod (s : State) (p : Nat) :
    (s.timerConfigure p).tmrPeriod = s.timerValue p := rfl
@[simp] theorem State.timerConfigure_tmrNext (s : State) (p : Nat) : (s.timerConfigure p).tmrNext = s.tmrNext := rfl
@[simp] theorem State.timerConfigure_tmrPend (s : State) (p : Nat) : (s.timerConfigure p).tmrPend = s.tmrPend := rfl
@[simp] theorem State.timerConfigure_tmrCount (s : State) (p : Nat) :
    (s.timerConfigure p).tmrCount = s.tmrCount := rfl
@[simp] theorem State.timerConfigure_handler (s : State) (p : Nat) : (s.timerConfigure p).handler = s.handler := rfl
@[simp] theorem State.timerConfigure_line (s : State) (p : Nat) : (s.timerConfigure p).line = s.line := rfl
@[simp] theorem State.timerConfigure_fault (s : State) (p : Nat) : (s.timerConfigure p).fault = s.fault := rfl
@[simp] theorem State.timerConfigure_rxq (s : State) (p : Nat) : (s.timerConfigure p).rxq = s.rxq := rfl
@[simp] theorem State.timerConfigure_txq (s : State) (p : Nat) : (s.timerConfigure p).txq = s.txq := rfl
@[simp] theorem State.timerConfigure_image (s : State) (p : Nat) : (s.timerConfigure p).image = s.image := rfl
@[simp] theorem State.timerConfigure_cmd (s : State) (p : Nat) : (s.timerConfigure p).cmd = s.cmd := rfl
@[simp] theorem State.timerConfigure_history (s : State) (p : Nat) : (s.timerConfigure p).history = s.history := rfl
@[simp] theorem State.timerConfigure_agenda (s : State) (p : Nat) : (s.timerConfigure p).agenda = s.agenda := rfl
@[simp] theorem State.timerConfigure_draws (s : State) (p : Nat) : (s.timerConfigure p).draws = s.draws := rfl
@[simp] theorem State.timerConfigure_resets (s : State) (p : Nat) : (s.timerConfigure p).resets = s.resets := rfl

/-! `timerArmChannel` -/

@[simp] theorem State.timerArmChannel_cfg (s : State) (ch : Chan) (off : Nat) (clr : Bool) :
    (s.timerArmChannel ch off clr).cfg = s.cfg := rfl
@[simp] theorem State.timerArmChannel_seq (s : State) (ch : Chan) (off : Nat) (clr : Bool) :
    (s.timerArmChannel ch off clr).seq = s.seq := rfl
@[simp] theorem State.timerArmChannel_fgTx (s : State) (ch : Chan) (off : Nat) (clr : Bool) :
    (s.timerArmChannel ch off clr).fgTx = s.fgTx := rfl
@[simp] theorem State.timerArmChannel_bootFlag (s : State) (ch : Chan) (off : Nat) (clr : Bool) :
    (s.timerArmChannel ch off clr).bootFlag = s.bootFlag := rfl
@[simp] theorem State.timerArmChannel_cmdLen (s : State) (ch : Chan) (off : Nat) (clr : Bool) :
    (s.timerArmChannel ch off clr).cmdLen = s.cmdLen := rfl
@[simp] theorem State.timerArmChannel_dataCnt (s : State) (ch : Chan) (off : Nat) (clr : Bool) :
    (s.timerArmChannel ch off clr).dataCnt = s.dataCnt := rfl
@[simp] theorem State.timerArmChannel_serState (s : State) (ch : Chan) (off : Nat) (clr : Bool) :
    (s.timerArmChannel ch off clr).serState = s.serState := rfl
@[simp] theorem State.timerArmChannel_byteIndex (s : State) (ch : Chan) (off : Nat) (clr : Bool) :
    (s.timerArmChannel ch off clr).byteIndex = s.byteIndex := rfl
@[simp] theorem State.timerArmChannel_bitIndex (s : State) (ch : Chan) (off : Nat) (clr : Bool) :
    (s.timerArmChannel ch off clr).bitIndex = s.bitIndex := rfl
@[simp] theorem State.timerArmChannel_tmrEn (s : State) (ch : Chan) (off : Nat) (clr : Bool) :
    (s.timerArmChannel ch off clr).tmrEn = s.tmrEn := rfl
@[simp] theorem State.timerArmChannel_tmrCC (s : State) (ch : Chan) (off : Nat) (clr : Bool) :
    (s.timerArmChannel ch off clr).tmrCC = s.tmrCC.set ch (s.timerValue off) := rfl
@[simp] theorem State.timerArmChannel_tmrClr (s : State) (ch : Chan) (off : Nat) (clr : Bool) :
    (s.timerArmChannel ch off clr).tmrClr = s.tmrClr.set ch clr := rfl
@[simp] theorem State.timerArmChannel_tmrPeriod (s : State) (ch : Chan) (off : Nat) (clr : Bool) :
    (s.timerArmChannel ch off clr).tmrPeriod = s.tmrPeriod := rfl
@[simp] theorem State.timerArmChannel_tmrNext (s : State) (ch : Chan) (off : Nat) (clr : Bool) :
    (s.timerArmChannel ch off clr).tmrNext = s.tmrNext := rfl
@[simp] theorem State.timerArmChannel_tmrPend (s : State) (ch : Chan) (off : Nat) (clr : Bool) :
    (s.timerArmChannel ch off clr).tmrPend = s.tmrPend := rfl
@[simp] theorem State.timerArmChannel_tmrCount (s : State) (ch : Chan) (off : Nat) (clr : Bool) :
    (s.timerArmChannel ch off clr).tmrCount = s.tmrCount := rfl
@[simp] theorem State.timerArmChannel_handler (s : State) (ch : Chan) (off : Nat) (clr : Bool) :
    (s.timerArmChannel ch off clr).handler = s.handler := rfl
@[simp] theorem State.timerArmChannel_line (s : State) (ch : Chan) (off : Nat) (clr : Bool) :
    (s.timerArmChannel ch off clr).line = s.line := rfl
@[simp] theorem State.timerArmChannel_fault (s : State) (ch : Chan) (off : Nat) (clr : Bool) :
    (s.timerArmChannel ch off clr).fault = s.fault := rfl
@[simp] theorem State.timerArmChannel_rxq (s : State) (ch : Chan) (off : Nat) (clr : Bool) :
    (s.timerArmChannel ch off clr).rxq = s.rxq := rfl
@[simp] theorem State.timerArmChannel_txq (s : State) (ch : Chan) (off : Nat) (clr : Bool) :
    (s.timerArmChannel ch off clr).txq = s.txq := rfl
@[simp] theorem State.timerArmChannel_image (s : State) (ch : Chan) (off : Nat) (clr : Bool) :
    (s.timerArmChannel ch off clr).image = s.image := rfl
@[simp] theorem State.timerArmChannel_cmd (s : State) (ch : Chan) (off : Nat) (clr : Bool) :
    (s.timerArmChannel ch off clr).cmd = s.cmd := rfl
@[simp] theorem State.timerArmChannel_history (s : State) (ch : Chan) (off : Nat) (clr : Bool) :
    (s.timerArmChannel ch off clr).history = s.history := rfl
@[simp] theorem State.timerArmChannel_agenda (s : State) (ch : Chan) (off : Nat) (clr : Bool) :
    (s.timerArmChannel ch off clr).agenda = s.agenda := rfl
@[simp] theorem State.timerArmChannel_draws (s : State) (ch : Chan) (off : Nat) (clr : Bool) :
    (s.timerArmChannel ch off clr).draws = s.draws := rfl
@[simp] theorem State.timerArmChannel_resets (s : State) (ch : Chan) (off : Nat) (clr : Bool) :
    (s.timerArmChannel ch off clr).resets = s.resets := rfl

/-! `timerEnable` -/

@[simp] theorem State.timerEnable_cfg (s : State) : s.timerEnable.cfg = s.cfg := rfl
@[simp] theorem State.timerEnable_seq (s : State) : s.timerEnable.seq = s.seq := rfl
@[simp] theorem State.timerEnable_fgTx (s : State) : s.timerEnable.fgTx = s.fgTx := rfl
@[simp] theorem State.timerEnable_bootFlag (s : State) : s.timerEnable.bootFlag = s.bootFlag := rfl
@[simp] theorem State.timerEnable_cmdLen (s : State) : s.timerEnable.cmdLen = s.cmdLen := rfl
@[simp] theorem State.timerEnable_dataCnt (s : State) : s.timerEnable.dataCnt = s.dataCnt := rfl
@[simp] theorem State.timerEnable_serState (s : State) : s.timerEnable.serState = s.serState := rfl
@[simp] theorem State.timerEnable_byteIndex (s : State) : s.timerEnable.byteIndex = s.byteIndex := rfl
@[simp] theorem State.timerEnable_bitIndex (s : State) : s.timerEnable.bitIndex = s.bitIndex := rfl
@[simp] theorem State.timerEnable_tmrEn (s : State) : s.timerEnable.tmrEn = true := rfl
@[simp] theorem State.timerEnable_tmrCC (s : State) : s.timerEnable.tmrCC = s.tmrCC := rfl
@[simp] theorem State.timerEnable_tmrClr (s : State) : s.timerEnable.tmrClr = s.tmrClr := rfl
@[simp] theorem State.timerEnable_tmrPeriod (s : State) : s.timerEnable.tmrPeriod = s.tmrPeriod := rfl
@[simp] theorem State.timerEnable_tmrNext (s : State) : s.timerEnable.tmrNext = s.tmrNext := rfl
@[simp] theorem State.timerEnable_tmrPend (s : State) : s.timerEnable.tmrPend = s.tmrPend := rfl
@[simp] theorem State.timerEnable_tmrCount (s : State) : s.timerEnable.tmrCount = s.tmrCount := rfl
@[simp] theorem State.timerEnable_handler (s : State) : s.timerEnable.handler = s.handler := rfl
@[simp] theorem State.timerEnable_line (s : State) : s.timerEnable.line = s.line := rfl
@[simp] theorem State.timerEnable_fault (s : State) : s.timerEnable.fault = s.fault := rfl
@[simp] theorem State.timerEnable_rxq (s : State) : s.timerEnable.rxq = s.rxq := rfl
@[simp] theorem State.timerEnable_txq (s : State) : s.timerEnable.txq = s.txq := rfl
@[simp] theorem State.timerEnable_image (s : State) : s.timerEnable.image = s.image := rfl
@[simp] theorem State.timerEnable_cmd (s : State) : s.timerEnable.cmd = s.cmd := rfl
@[simp] theorem State.timerEnable_history (s : State) : s.timerEnable.history = s.history := rfl
@[simp] theorem State.timerEnable_agenda (s : State) : s.timerEnable.agenda = s.agenda := rfl
@[simp] theorem State.timerEnable_draws (s : State) : s.timerEnable.draws = s.draws := rfl
@[simp] theorem State.timerEnable_resets (s : State) : s.timerEnable.resets = s.resets := rfl

/-! `timerDisable` -/

@[simp] theorem State.timerDisable_cfg (s : State) : s.timerDisable.cfg = s.cfg := rfl
@[simp] theorem State.timerDisable_seq (s : State) : s.timerDisable.seq = s.seq := rfl
@[simp] theorem State.timerDisable_fgTx (s : State) : s.timerDisable.fgTx = s.fgTx := rfl
@[simp] theorem State.timerDisable_bootFlag (s : State) : s.timerDisable.bootFlag = s.bootFlag := rfl
@[simp] theorem State.timerDisable_cmdLen (s : State) : s.timerDisable.cmdLen = s.cmdLen := rfl
@[simp] theorem State.timerDisable_dataCnt (s : State) : s.timerDisable.dataCnt = s.dataCnt := rfl
@[simp] theorem State.timerDisable_serState (s : State) : s.timerDisable.serState = s.serState := rfl
@[simp] theorem State.timerDisable_byteIndex (s : State) : s.timerDisable.byteIndex = s.byteIndex := rfl
@[simp] theorem State.timerDisable_bitIndex (s : State) : s.timerDisable.bitIndex = s.bitIndex := rfl
@[simp] theorem State.timerDisable_tmrEn (s : State) : s.timerDisable.tmrEn = false := rfl
@[simp] theorem State.timerDisable_tmrCC (s : State) : s.timerDisable.tmrCC = s.tmrCC := rfl
@[simp] theorem State.timerDisable_tmrClr (s : State) : s.timerDisable.tmrClr = s.tmrClr := rfl
@[simp] theorem State.timerDisable_tmrPeriod (s : State) : s.timerDisable.tmrPeriod = s.tmrPeriod := rfl
@[simp] theorem State.timerDisable_tmrNext (s : State) : s.timerDisable.tmrNext = s.tmrNext := rfl
@[simp] theorem State.timerDisable_tmrPend (s : State) : s.timerDisable.tmrPend = s.tmrPend := rfl
@[simp] theorem State.timerDisable_tmrCount (s : State) : s.timerDisable.tmrCount = s.tmrCount := rfl
@[simp] theorem State.timerDisable_handler (s : State) : s.timerDisable.handler = s.handler := rfl
@[simp] theorem State.timerDisable_line (s : State) : s.timerDisable.line = s.line := rfl
@[simp] theorem State.timerDisable_fault (s : State) : s.timerDisable.fault = s.fault := rfl
@[simp] theorem State.timerDisable_rxq (s : State) : s.timerDisable.rxq = s.rxq := rfl
@[simp] theorem State.timerDisable_txq (s : State) : s.timerDisable.txq = s.txq := rfl
@[simp] theorem State.timerDisable_image (s : State) : s.timerDisable.image = s.image := rfl
@[simp] theorem State.timerDisable_cmd (s : State) : s.timerDisable.cmd = s.cmd := rfl
@[simp] theorem State.timerDisable_history (s : State) : s.timerDisable.history = s.history := rfl
@[simp] theorem State.timerDisable_agenda (s : State) : s.timerDisable.agenda = s.agenda := rfl
@[simp] theorem State.timerDisable_draws (s : State) : s.timerDisable.draws = s.draws := rfl
@[simp] theorem State.timerDisable_resets (s : State) : s.timerDisable.resets = s.resets := rfl

/-! `setPend` -/

@[simp] theorem State.setPend_cfg (s : State) (ch : Chan) (x : Bool) : (s.setPend ch x).cfg = s.cfg := rfl
@[simp] theorem State.setPend_seq (s : State) (ch : Chan) (x : Bool) : (s.setPend ch x).seq = s.seq := rfl
@[simp] theorem State.setPend_fgTx (s : State) (ch : Chan) (x : Bool) : (s.setPend ch x).fgTx = s.fgTx := rfl
@[simp] theorem State.setPend_bootFlag (s : State) (ch : Chan) (x : Bool) :
    (s.setPend ch x).bootFlag = s.bootFlag := rfl
@[simp] theorem State.setPend_cmdLen (s : State) (ch : Chan) (x : Bool) : (s.setPend ch x).cmdLen = s.cmdLen := rfl
@[simp] theorem State.setPend_dataCnt (s : State) (ch : Chan) (x : Bool) : (s.setPend ch x).dataCnt = s.dataCnt := rfl
@[simp] theorem State.setPend_serState (s : State) (ch : Chan) (x : Bool) :
    (s.setPend ch x).serState = s.serState := rfl
@[simp] theorem State.setPend_byteIndex (s : State) (ch : Chan) (x : Bool) :
    (s.setPend ch x).byteIndex = s.byteIndex := rfl
@[simp] theorem State.setPend_bitIndex (s : State) (ch : Chan) (x : Bool) :
    (s.setPend ch x).bitIndex = s.bitIndex := rfl
@[simp] theorem State.setPend_tmrEn (s : State) (ch : Chan) (x : Bool) : (s.setPend ch x).tmrEn = s.tmrEn := rfl
@[simp] theorem State.setPend_tmrCC (s : State) (ch : Chan) (x : Bool) : (s.setPend ch x).tmrCC = s.tmrCC := rfl
@[simp] theorem State.setPend_tmrClr (s : State) (ch : Chan) (x : Bool) : (s.setPend ch x).tmrClr = s.tmrClr := rfl
@[simp] theorem State.setPend_tmrPeriod (s : State) (ch : Chan) (x : Bool) :
    (s.setPend ch x).tmrPeriod = s.tmrPeriod := rfl
@[simp] theorem State.setPend_tmrNext (s : State) (ch : Chan) (x : Bool) : (s.setPend ch x).tmrNext = s.tmrNext := rfl
@[simp] theorem State.setPend_tmrPend (s : State) (ch : Chan) (x : Bool) :
    (s.setPend ch x).tmrPend = s.tmrPend.set ch x := rfl
@[simp] theorem State.setPend_tmrCount (s : State) (ch : Chan) (x : Bool) :
    (s.setPend ch x).tmrCount = s.tmrCount := rfl
@[simp] theorem State.setPend_handler (s : State) (ch : Chan) (x : Bool) : (s.setPend ch x).handler = s.handler := rfl
@[simp] theorem State.setPend_line (s : State) (ch : Chan) (x : Bool) : (s.setPend ch x).line = s.line := rfl
@[simp] theorem State.setPend_fault (s : State) (ch : Chan) (x : Bool) : (s.setPend ch x).fault = s.fault := rfl
@[simp] theorem State.setPend_rxq (s : State) (ch : Chan) (x : Bool) : (s.setPend ch x).rxq = s.rxq := rfl
@[simp] theorem State.setPend_txq (s : State) (ch : Chan) (x : Bool) : (s.setPend ch x).txq = s.txq := rfl
@[simp] theorem State.setPend_image (s : State) (ch : Chan) (x : Bool) : (s.setPend ch x).image = s.image := rfl
@[simp] theorem State.setPend_cmd (s : State) (ch : Chan) (x : Bool) : (s.setPend ch x).cmd = s.cmd := rfl
@[simp] theorem State.setPend_history (s : State) (ch : Chan) (x : Bool) : (s.setPend ch x).history = s.history := rfl
@[simp] theorem State.setPend_agenda (s : State) (ch : Chan) (x : Bool) : (s.setPend ch x).agenda = s.agenda := rfl
@[simp] theorem State.setPend_draws (s : State) (ch : Chan) (x : Bool) : (s.setPend ch x).draws = s.draws := rfl
@[simp] theorem State.setPend_resets (s : State) (ch : Chan) (x : Bool) : (s.setPend ch x).resets = s.resets := rfl

/-! `returnReceive` -/

@[simp] theorem State.returnReceive_cfg (s : State) : s.returnReceive.cfg = s.cfg := rfl
@[simp] theorem State.returnReceive_seq (s : State) : s.returnReceive.seq = nextPhase s.seq := rfl
@[simp] theorem State.returnReceive_fgTx (s : State) : s.returnReceive.fgTx = s.fgTx := rfl
@[simp] theorem State.returnReceive_bootFlag (s : State) : s.returnReceive.bootFlag = s.bootFlag := rfl
@[simp] theorem State.returnReceive_cmdLen (s : State) : s.returnReceive.cmdLen = s.cmdLen := rfl
@[simp] theorem State.returnReceive_dataCnt (s : State) : s.returnReceive.dataCnt = s.dataCnt := rfl
@[simp] theorem State.returnReceive_serState (s : State) : s.returnReceive.serState = s.serState := rfl
@[simp] theorem State.returnReceive_byteIndex (s : State) : s.returnReceive.byteIndex = s.byteIndex := rfl
@[simp] theorem State.returnReceive_bitIndex (s : State) : s.returnReceive.bitIndex = s.bitIndex := rfl
@[simp] theorem State.returnReceive_tmrEn (s : State) : s.returnReceive.tmrEn = s.tmrEn := rfl
@[simp] theorem State.returnReceive_tmrCC (s : State) : s.returnReceive.tmrCC = s.tmrCC := rfl
@[simp] theorem State.returnReceive_tmrClr (s : State) : s.returnReceive.tmrClr = s.tmrClr := rfl
@[simp] theorem State.returnReceive_tmrPeriod (s : State) : s.returnReceive.tmrPeriod = s.tmrPeriod := rfl
@[simp] theorem State.returnReceive_tmrNext (s : State) : s.returnReceive.tmrNext = s.tmrNext := rfl
@[simp] theorem State.returnReceive_tmrPend (s : State) : s.returnReceive.tmrPend = s.tmrPend := rfl
@[simp] theorem State.returnReceive_tmrCount (s : State) : s.returnReceive.tmrCount = s.tmrCount := rfl
@[simp] theorem State.returnReceive_handler (s : State) : s.returnReceive.handler = s.handler := rfl
@[simp] theorem State.returnReceive_line (s : State) : s.returnReceive.line = s.line := rfl
@[simp] theorem State.returnReceive_fault (s : State) : s.returnReceive.fault = s.fault := rfl
@[simp] theorem State.returnReceive_rxq (s : State) : s.returnReceive.rxq = s.rxq := rfl
@[simp] theorem State.returnReceive_txq (s : State) : s.returnReceive.txq = s.txq := rfl
@[simp] theorem State.returnReceive_image (s : State) : s.returnReceive.image = s.image := rfl
@[simp] theorem State.returnReceive_cmd (s : State) : s.returnReceive.cmd = s.cmd := rfl
@[simp] theorem State.returnReceive_history (s : State) : s.returnReceive.history = s.history := rfl
@[simp] theorem State.returnReceive_agenda (s : State) : s.returnReceive.agenda = s.agenda := rfl
@[simp] theorem State.returnReceive_draws (s : State) : s.returnReceive.draws = s.draws := rfl
@[simp] theorem State.returnReceive_resets (s : State) : s.returnReceive.resets = s.resets := rfl

/-! `raiseFault` -/

@[simp] theorem State.raiseFault_cfg (s : State) (c : FaultCode) : (s.raiseFault c).cfg = s.cfg := rfl
@[simp] theorem State.raiseFault_seq (s : State) (c : FaultCode) : (s.raiseFault c).seq = .faulted := rfl
@[simp] theorem State.raiseFault_fgTx (s : State) (c : FaultCode) : (s.raiseFault c).fgTx = none := rfl
@[simp] theorem State.raiseFault_bootFlag (s : State) (c : FaultCode) : (s.raiseFault c).bootFlag = s.bootFlag := rfl
@[simp] theorem State.raiseFault_cmdLen (s : State) (c : FaultCode) : (s.raiseFault c).cmdLen = s.cmdLen := rfl
@[simp] theorem State.raiseFault_dataCnt (s : State) (c : FaultCode) : (s.raiseFault c).dataCnt = s.dataCnt := rfl
@[simp] theorem State.raiseFault_serState (s : State) (c : FaultCode) : (s.raiseFault c).serState = s.serState := rfl
@[simp] theorem State.raiseFault_byteIndex (s : State) (c : FaultCode) :
    (s.raiseFault c).byteIndex = s.byteIndex := rfl
@[simp] theorem State.raiseFault_bitIndex (s : State) (c : FaultCode) : (s.raiseFault c).bitIndex = s.bitIndex := rfl
@[simp] theorem State.raiseFault_tmrEn (s : State) (c : FaultCode) : (s.raiseFault c).tmrEn = false := rfl
@[simp] theorem State.raiseFault_tmrCC (s : State) (c : FaultCode) : (s.raiseFault c).tmrCC = s.tmrCC := rfl
@[simp] theorem State.raiseFault_tmrClr (s : State) (c : FaultCode) : (s.raiseFault c).tmrClr = s.tmrClr := rfl
@[simp] theorem State.raiseFault_tmrPeriod (s : State) (c : FaultCode) :
    (s.raiseFault c).tmrPeriod = s.tmrPeriod := rfl
@[simp] theorem State.raiseFault_tmrNext (s : State) (c : FaultCode) : (s.raiseFault c).tmrNext = s.tmrNext := rfl
@[simp] theorem State.raiseFault_tmrPend (s : State) (c : FaultCode) : (s.raiseFault c).tmrPend = s.tmrPend := rfl
@[simp] theorem State.raiseFault_tmrCount (s : State) (c : FaultCode) : (s.raiseFault c).tmrCount = s.tmrCount := rfl
@[simp] theorem State.raiseFault_handler (s : State) (c : FaultCode) : (s.raiseFault c).handler = none := rfl
@[simp] theorem State.raiseFault_line (s : State) (c : FaultCode) : (s.raiseFault c).line = s.line := rfl
@[simp] theorem State.raiseFault_fault (s : State) (c : FaultCode) : (s.raiseFault c).fault = c := rfl
@[simp] theorem State.raiseFault_rxq (s : State) (c : FaultCode) : (s.raiseFault c).rxq = s.rxq := rfl
@[simp] theorem State.raiseFault_txq (s : State) (c : FaultCode) : (s.raiseFault c).txq = s.txq := rfl
@[simp] theorem State.raiseFault_image (s : State) (c : FaultCode) : (s.raiseFault c).image = s.image := rfl
@[simp] theorem State.raiseFault_cmd (s : State) (c : FaultCode) : (s.raiseFault c).cmd = s.cmd := rfl
@[simp] theorem State.raiseFault_history (s : State) (c : FaultCode) : (s.raiseFault c).history = s.history := rfl
@[simp] theorem State.raiseFault_agenda (s : State) (c : FaultCode) : (s.raiseFault c).agenda = s.agenda := rfl
@[simp] theorem State.raiseFault_draws (s : State) (c : FaultCode) : (s.raiseFault c).draws = s.draws := rfl
@[simp] theorem State.raiseFault_resets (s : State) (c : FaultCode) : (s.raiseFault c).resets = s.resets := rfl

/-! `handlerReturn` -/

@[simp] theorem State.handlerReturn_cfg (s : State) : s.handlerReturn.cfg = s.cfg := rfl
@[simp] theorem State.handlerReturn_seq (s : State) : s.handlerReturn.seq = s.seq := rfl
@[simp] theorem State.handlerReturn_fgTx (s : State) : s.handlerReturn.fgTx = s.fgTx := rfl
@[simp] theorem State.handlerReturn_bootFlag (s : State) : s.handlerReturn.bootFlag = s.bootFlag := rfl
@[simp] theorem State.handlerReturn_cmdLen (s : State) : s.handlerReturn.cmdLen = s.cmdLen := rfl
@[simp] theorem State.handlerReturn_dataCnt (s : State) : s.handlerReturn.dataCnt = s.dataCnt := rfl
@[simp] theorem State.handlerReturn_serState (s : State) : s.handlerReturn.serState = s.serState := rfl
@[simp] theorem State.handlerReturn_byteIndex (s : State) : s.handlerReturn.byteIndex = s.byteIndex := rfl
@[simp] theorem State.handlerReturn_bitIndex (s : State) : s.handlerReturn.bitIndex = s.bitIndex := rfl
@[simp] theorem State.handlerReturn_tmrEn (s : State) : s.handlerReturn.tmrEn = s.tmrEn := rfl
@[simp] theorem State.handlerReturn_tmrCC (s : State) : s.handlerReturn.tmrCC = s.tmrCC := rfl
@[simp] theorem State.handlerReturn_tmrClr (s : State) : s.handlerReturn.tmrClr = s.tmrClr := rfl
@[simp] theorem State.handlerReturn_tmrPeriod (s : State) : s.handlerReturn.tmrPeriod = s.tmrPeriod := rfl
@[simp] theorem State.handlerReturn_tmrNext (s : State) : s.handlerReturn.tmrNext = s.tmrNext := rfl
@[simp] theorem State.handlerReturn_tmrPend (s : State) : s.handlerReturn.tmrPend = s.tmrPend := rfl
@[simp] theorem State.handlerReturn_tmrCount (s : State) : s.handlerReturn.tmrCount = s.tmrCount := rfl
@[simp] theorem State.handlerReturn_handler (s : State) : s.handlerReturn.handler = none := rfl
@[simp] theorem State.handlerReturn_line (s : State) : s.handlerReturn.line = s.line := rfl
@[simp] theorem State.handlerReturn_fault (s : State) : s.handlerReturn.fault = s.fault := rfl
@[simp] theorem State.handlerReturn_rxq (s : State) : s.handlerReturn.rxq = s.rxq := rfl
@[simp] theorem State.handlerReturn_txq (s : State) : s.handlerReturn.txq = s.txq := rfl
@[simp] theorem State.handlerReturn_image (s : State) : s.handlerReturn.image = s.image := rfl
@[simp] theorem State.handlerReturn_cmd (s : State) : s.handlerReturn.cmd = s.cmd := rfl
@[simp] theorem State.handlerReturn_history (s : State) : s.handlerReturn.history = s.history := rfl
@[simp] theorem State.handlerReturn_agenda (s : State) : s.handlerReturn.agenda = s.agenda := rfl
@[simp] theorem State.handlerReturn_draws (s : State) : s.handlerReturn.draws = s.draws := rfl
@[simp] theorem State.handlerReturn_resets (s : State) : s.handlerReturn.resets = s.resets := rfl

/-! `setBootFlag` -/

@[simp] theorem State.setBootFlag_cfg (s : State) : s.setBootFlag.cfg = s.cfg := rfl
@[simp] theorem State.setBootFlag_seq (s : State) : s.setBootFlag.seq = s.seq := rfl
@[simp] theorem State.setBootFlag_fgTx (s : State) : s.setBootFlag.fgTx = s.fgTx := rfl
@[simp] theorem State.setBootFlag_bootFlag (s : State) : s.setBootFlag.bootFlag = true := rfl
@[simp] theorem State.setBootFlag_cmdLen (s : State) : s.setBootFlag.cmdLen = s.cmdLen := rfl
@[simp] theorem State.setBootFlag_dataCnt (s : State) : s.setBootFlag.dataCnt = s.dataCnt := rfl
@[simp] theorem State.setBootFlag_serState (s : State) : s.setBootFlag.serState = s.serState := rfl
@[simp] theorem State.setBootFlag_byteIndex (s : State) : s.setBootFlag.byteIndex = s.byteIndex := rfl
@[simp] theorem State.setBootFlag_bitIndex (s : State) : s.setBootFlag.bitIndex = s.bitIndex := rfl
@[simp] theorem State.setBootFlag_tmrEn (s : State) : s.setBootFlag.tmrEn = s.tmrEn := rfl
@[simp] theorem State.setBootFlag_tmrCC (s : State) : s.setBootFlag.tmrCC = s.tmrCC := rfl
@[simp] theorem State.setBootFlag_tmrClr (s : State) : s.setBootFlag.tmrClr = s.tmrClr := rfl
@[simp] theorem State.setBootFlag_tmrPeriod (s : State) : s.setBootFlag.tmrPeriod = s.tmrPeriod := rfl
@[simp] theorem State.setBootFlag_tmrNext (s : State) : s.setBootFlag.tmrNext = s.tmrNext := rfl
@[simp] theorem State.setBootFlag_tmrPend (s : State) : s.setBootFlag.tmrPend = s.tmrPend := rfl
@[simp] theorem State.setBootFlag_tmrCount (s : State) : s.setBootFlag.tmrCount = s.tmrCount := rfl
@[simp] theorem State.setBootFlag_handler (s : State) : s.setBootFlag.handler = s.handler := rfl
@[simp] theorem State.setBootFlag_line (s : State) : s.setBootFlag.line = s.line := rfl
@[simp] theorem State.setBootFlag_fault (s : State) : s.setBootFlag.fault = s.fault := rfl
@[simp] theorem State.setBootFlag_rxq (s : State) : s.setBootFlag.rxq = s.rxq := rfl
@[simp] theorem State.setBootFlag_txq (s : State) : s.setBootFlag.txq = s.txq := rfl
@[simp] theorem State.setBootFlag_image (s : State) : s.setBootFlag.image = s.image := rfl
@[simp] theorem State.setBootFlag_cmd (s : State) : s.setBootFlag.cmd = s.cmd := rfl
@[simp] theorem State.setBootFlag_history (s : State) : s.setBootFlag.history = s.history := rfl
@[simp] theorem State.setBootFlag_agenda (s : State) : s.setBootFlag.agenda = s.agenda := rfl
@[simp] theorem State.setBootFlag_draws (s : State) : s.setBootFlag.draws = s.draws := rfl
@[simp] theorem State.setBootFlag_resets (s : State) : s.setBootFlag.resets = s.resets := rfl

/-! `cmdTransfer` -/

@[simp] theorem State.cmdTransfer_cfg (s : State) : s.cmdTransfer.cfg = s.cfg := rfl
@[simp] theorem State.cmdTransfer_seq (s : State) : s.cmdTransfer.seq = s.seq := rfl
@[simp] theorem State.cmdTransfer_fgTx (s : State) : s.cmdTransfer.fgTx = some ⟨.transferStarted, 0⟩ := rfl
@[simp] theorem State.cmdTransfer_bootFlag (s : State) : s.cmdTransfer.bootFlag = s.bootFlag := rfl
@[simp] theorem State.cmdTransfer_cmdLen (s : State) : s.cmdTransfer.cmdLen = s.cmdLen := rfl
@[simp] theorem State.cmdTransfer_dataCnt (s : State) : s.cmdTransfer.dataCnt = s.dataCnt := rfl
@[simp] theorem State.cmdTransfer_serState (s : State) : s.cmdTransfer.serState = s.serState := rfl
@[simp] theorem State.cmdTransfer_byteIndex (s : State) : s.cmdTransfer.byteIndex = s.byteIndex := rfl
@[simp] theorem State.cmdTransfer_bitIndex (s : State) : s.cmdTransfer.bitIndex = s.bitIndex := rfl
@[simp] theorem State.cmdTransfer_tmrEn (s : State) : s.cmdTransfer.tmrEn = s.tmrEn := rfl
@[simp] theorem State.cmdTransfer_tmrCC (s : State) : s.cmdTransfer.tmrCC = s.tmrCC := rfl
@[simp] theorem State.cmdTransfer_tmrClr (s : State) : s.cmdTransfer.tmrClr = s.tmrClr := rfl
@[simp] theorem State.cmdTransfer_tmrPeriod (s : State) : s.cmdTransfer.tmrPeriod = s.tmrPeriod := rfl
@[simp] theorem State.cmdTransfer_tmrNext (s : State) : s.cmdTransfer.tmrNext = s.tmrNext := rfl
@[simp] theorem State.cmdTransfer_tmrPend (s : State) : s.cmdTransfer.tmrPend = s.tmrPend := rfl
@[simp] theorem State.cmdTransfer_tmrCount (s : State) : s.cmdTransfer.tmrCount = s.tmrCount := rfl
@[simp] theorem State.cmdTransfer_handler (s : State) : s.cmdTransfer.handler = s.handler := rfl
@[simp] theorem State.cmdTransfer_line (s : State) : s.cmdTransfer.line = s.line := rfl
@[simp] theorem State.cmdTransfer_fault (s : State) : s.cmdTransfer.fault = s.fault := rfl
@[simp] theorem State.cmdTransfer_rxq (s : State) : s.cmdTransfer.rxq = s.rxq := rfl
@[simp] theorem State.cmdTransfer_txq (s : State) : s.cmdTransfer.txq = s.txq := rfl
@[simp] theorem State.cmdTransfer_image (s : State) : s.cmdTransfer.image = s.image := rfl
@[simp] theorem State.cmdTransfer_cmd (s : State) : s.cmdTransfer.cmd = s.cmd := rfl
@[simp] theorem State.cmdTransfer_history (s : State) : s.cmdTransfer.history = s.history := rfl
@[simp] theorem State.cmdTransfer_agenda (s : State) : s.cmdTransfer.agenda = s.agenda := rfl
@[simp] theorem State.cmdTransfer_draws (s : State) : s.cmdTransfer.draws = s.draws := rfl
@[simp] theorem State.cmdTransfer_resets (s : State) : s.cmdTransfer.resets = s.resets := rfl

/-! `cmdBoot3wb` -/

@[simp] theorem State.cmdBoot3wb_cfg (s : State) : s.cmdBoot3wb.cfg = s.cfg := rfl
@[simp] theorem State.cmdBoot3wb_seq (s : State) : s.cmdBoot3wb.seq = s.seq := rfl
@[simp] theorem State.cmdBoot3wb_fgTx (s : State) : s.cmdBoot3wb.fgTx = some ⟨.bootloadStarted, 0⟩ := rfl
@[simp] theorem State.cmdBoot3wb_bootFlag (s : State) : s.cmdBoot3wb.bootFlag = true := rfl
@[simp] theorem State.cmdBoot3wb_cmdLen (s : State) : s.cmdBoot3wb.cmdLen = s.cmdLen := rfl
@[simp] theorem State.cmdBoot3wb_dataCnt (s : State) : s.cmdBoot3wb.dataCnt = s.dataCnt := rfl
@[simp] theorem State.cmdBoot3wb_serState (s : State) : s.cmdBoot3wb.serState = s.serState := rfl
@[simp] theorem State.cmdBoot3wb_byteIndex (s : State) : s.cmdBoot3wb.byteIndex = s.byteIndex := rfl
@[simp] theorem State.cmdBoot3wb_bitIndex (s : State) : s.cmdBoot3wb.bitIndex = s.bitIndex := rfl
@[simp] theorem State.cmdBoot3wb_tmrEn (s : State) : s.cmdBoot3wb.tmrEn = s.tmrEn := rfl
@[simp] theorem State.cmdBoot3wb_tmrCC (s : State) : s.cmdBoot3wb.tmrCC = s.tmrCC := rfl
@[simp] theorem State.cmdBoot3wb_tmrClr (s : State) : s.cmdBoot3wb.tmrClr = s.tmrClr := rfl
@[simp] theorem State.cmdBoot3wb_tmrPeriod (s : State) : s.cmdBoot3wb.tmrPeriod = s.tmrPeriod := rfl
@[simp] theorem State.cmdBoot3wb_tmrNext (s : State) : s.cmdBoot3wb.tmrNext = s.tmrNext := rfl
@[simp] theorem State.cmdBoot3wb_tmrPend (s : State) : s.cmdBoot3wb.tmrPend = s.tmrPend := rfl
@[simp] theorem State.cmdBoot3wb_tmrCount (s : State) : s.cmdBoot3wb.tmrCount = s.tmrCount := rfl
@[simp] theorem State.cmdBoot3wb_handler (s : State) : s.cmdBoot3wb.handler = s.handler := rfl
@[simp] theorem State.cmdBoot3wb_line (s : State) : s.cmdBoot3wb.line = s.line := rfl
@[simp] theorem State.cmdBoot3wb_fault (s : State) : s.cmdBoot3wb.fault = s.fault := rfl
@[simp] theorem State.cmdBoot3wb_rxq (s : State) : s.cmdBoot3wb.rxq = s.rxq := rfl
@[simp] theorem State.cmdBoot3wb_txq (s : State) : s.cmdBoot3wb.txq = s.txq := rfl
@[simp] theorem State.cmdBoot3wb_image (s : State) : s.cmdBoot3wb.image = s.image := rfl
@[simp] theorem State.cmdBoot3wb_cmd (s : State) : s.cmdBoot3wb.cmd = s.cmd := rfl
@[simp] theorem State.cmdBoot3wb_history (s : State) : s.cmdBoot3wb.history = s.history := rfl
@[simp] theorem State.cmdBoot3wb_agenda (s : State) : s.cmdBoot3wb.agenda = s.agenda := rfl
@[simp] theorem State.cmdBoot3wb_draws (s : State) : s.cmdBoot3wb.draws = s.draws := rfl
@[simp] theorem State.cmdBoot3wb_resets (s : State) : s.cmdBoot3wb.resets = s.resets := rfl

/-! `cmdOther` -/

@[simp] theorem State.cmdOther_cfg (s : State) : s.cmdOther.cfg = s.cfg := rfl
@[simp] theorem State.cmdOther_seq (s : State) : s.cmdOther.seq = nextPhase s.seq := rfl
@[simp] theorem State.cmdOther_fgTx (s : State) : s.cmdOther.fgTx = s.fgTx := rfl
@[simp] theorem State.cmdOther_bootFlag (s : State) : s.cmdOther.bootFlag = s.bootFlag := rfl
@[simp] theorem State.cmdOther_cmdLen (s : State) : s.cmdOther.cmdLen = s.cmdLen := rfl
@[simp] theorem State.cmdOther_dataCnt (s : State) : s.cmdOther.dataCnt = s.dataCnt := rfl
@[simp] theorem State.cmdOther_serState (s : State) : s.cmdOther.serState = s.serState := rfl
@[simp] theorem State.cmdOther_byteIndex (s : State) : s.cmdOther.byteIndex = s.byteIndex := rfl
@[simp] theorem State.cmdOther_bitIndex (s : State) : s.cmdOther.bitIndex = s.bitIndex := rfl
@[simp] theorem State.cmdOther_tmrEn (s : State) : s.cmdOther.tmrEn = s.tmrEn := rfl
@[simp] theorem State.cmdOther_tmrCC (s : State) : s.cmdOther.tmrCC = s.tmrCC := rfl
@[simp] theorem State.cmdOther_tmrClr (s : State) : s.cmdOther.tmrClr = s.tmrClr := rfl
@[simp] theorem State.cmdOther_tmrPeriod (s : State) : s.cmdOther.tmrPeriod = s.tmrPeriod := rfl
@[simp] theorem State.cmdOther_tmrNext (s : State) : s.cmdOther.tmrNext = s.tmrNext := rfl
@[simp] theorem State.cmdOther_tmrPend (s : State) : s.cmdOther.tmrPend = s.tmrPend := rfl
@[simp] theorem State.cmdOther_tmrCount (s : State) : s.cmdOther.tmrCount = s.tmrCount := rfl
@[simp] theorem State.cmdOther_handler (s : State) : s.cmdOther.handler = s.handler := rfl
@[simp] theorem State.cmdOther_line (s : State) : s.cmdOther.line = s.line := rfl
@[simp] theorem State.cmdOther_fault (s : State) : s.cmdOther.fault = s.fault := rfl
@[simp] theorem State.cmdOther_rxq (s : State) : s.cmdOther.rxq = s.rxq := rfl
@[simp] theorem State.cmdOther_txq (s : State) : s.cmdOther.txq = s.txq := rfl
@[simp] theorem State.cmdOther_image (s : State) : s.cmdOther.image = s.image := rfl
@[simp] theorem State.cmdOther_cmd (s : State) : s.cmdOther.cmd = s.cmd := rfl
@[simp] theorem State.cmdOther_history (s : State) : s.cmdOther.history = s.history := rfl
@[simp] theorem State.cmdOther_agenda (s : State) : s.cmdOther.agenda = s.agenda := rfl
@[simp] theorem State.cmdOther_draws (s : State) : s.cmdOther.draws = s.draws := rfl
@[simp] theorem State.cmdOther_resets (s : State) : s.cmdOther.resets = s.resets := rfl

/-! `storeNewline` -/

@[simp] theorem State.storeNewline_cfg (s : State) : s.storeNewline.cfg = s.cfg := rfl
@[simp] theorem State.storeNewline_seq (s : State) : s.storeNewline.seq = s.seq := rfl
@[simp] theorem State.storeNewline_fgTx (s : State) : s.storeNewline.fgTx = s.fgTx := rfl
@[simp] theorem State.storeNewline_bootFlag (s : State) : s.storeNewline.bootFlag = s.bootFlag := rfl
@[simp] theorem State.storeNewline_cmdLen (s : State) : s.storeNewline.cmdLen = 0 := rfl
@[simp] theorem State.storeNewline_dataCnt (s : State) : s.storeNewline.dataCnt = s.dataCnt := rfl
@[simp] theorem State.storeNewline_serState (s : State) : s.storeNewline.serState = s.serState := rfl
@[simp] theorem State.storeNewline_byteIndex (s : State) : s.storeNewline.byteIndex = s.byteIndex := rfl
@[simp] theorem State.storeNewline_bitIndex (s : State) : s.storeNewline.bitIndex = s.bitIndex := rfl
@[simp] theorem State.storeNewline_tmrEn (s : State) : s.storeNewline.tmrEn = s.tmrEn := rfl
@[simp] theorem State.storeNewline_tmrCC (s : State) : s.storeNewline.tmrCC = s.tmrCC := rfl
@[simp] theorem State.storeNewline_tmrClr (s : State) : s.storeNewline.tmrClr = s.tmrClr := rfl
@[simp] theorem State.storeNewline_tmrPeriod (s : State) : s.storeNewline.tmrPeriod = s.tmrPeriod := rfl
@[simp] theorem State.storeNewline_tmrNext (s : State) : s.storeNewline.tmrNext = s.tmrNext := rfl
@[simp] theorem State.storeNewline_tmrPend (s : State) : s.storeNewline.tmrPend = s.tmrPend := rfl
@[simp] theorem State.storeNewline_tmrCount (s : State) : s.storeNewline.tmrCount = s.tmrCount := rfl
@[simp] theorem State.storeNewline_handler (s : State) : s.storeNewline.handler = s.handler := rfl
@[simp] theorem State.storeNewline_line (s : State) : s.storeNewline.line = s.line := rfl
@[simp] theorem State.storeNewline_fault (s : State) : s.storeNewline.fault = s.fault := rfl
@[simp] theorem State.storeNewline_rxq (s : State) : s.storeNewline.rxq = s.rxq.tail := rfl
@[simp] theorem State.storeNewline_txq (s : State) : s.storeNewline.txq = s.txq := rfl
@[simp] theorem State.storeNewline_image (s : State) : s.storeNewline.image = s.image := rfl
@[simp] theorem State.storeNewline_cmd (s : State) :
    s.storeNewline.cmd = Memory.write s.cmd s.cmdLen.toNat newline := rfl
@[simp] theorem State.storeNewline_history (s : State) : s.storeNewline.history = s.history := rfl
@[simp] theorem State.storeNewline_agenda (s : State) : s.storeNewline.agenda = s.agenda := rfl
@[simp] theorem State.storeNewline_draws (s : State) : s.storeNewline.draws = s.draws := rfl
@[simp] theorem State.storeNewline_resets (s : State) : s.storeNewline.resets = s.resets := rfl

/-! `fire` -/

@[simp] theorem State.fire_cfg (s : State) : s.fire.cfg = s.cfg := rfl
@[simp] theorem State.fire_seq (s : State) : s.fire.seq = s.seq := rfl
@[simp] theorem State.fire_fgTx (s : State) : s.fire.fgTx = s.fgTx := rfl
@[simp] theorem State.fire_bootFlag (s : State) : s.fire.bootFlag = s.bootFlag := rfl
@[simp] theorem State.fire_cmdLen (s : State) : s.fire.cmdLen = s.cmdLen := rfl
@[simp] theorem State.fire_dataCnt (s : State) : s.fire.dataCnt = s.dataCnt := rfl
@[simp] theorem State.fire_serState (s : State) : s.fire.serState = s.serState := rfl
@[simp] theorem State.fire_byteIndex (s : State) : s.fire.byteIndex = s.byteIndex := rfl
@[simp] theorem State.fire_bitIndex (s : State) : s.fire.bitIndex = s.bitIndex := rfl
@[simp] theorem State.fire_tmrEn (s : State) : s.fire.tmrEn = s.tmrEn := rfl
@[simp] theorem State.fire_tmrCC (s : State) : s.fire.tmrCC = s.tmrCC := rfl
@[simp] theorem State.fire_tmrClr (s : State) : s.fire.tmrClr = s.tmrClr := rfl
@[simp] theorem State.fire_tmrPeriod (s : State) : s.fire.tmrPeriod = s.tmrPeriod := rfl
@[simp] theorem State.fire_tmrNext (s : State) : s.fire.tmrNext = nextChan s.tmrNext := rfl
@[simp] theorem State.fire_tmrPend (s : State) : s.fire.tmrPend = s.tmrPend.set s.tmrNext true := rfl
@[simp] theorem State.fire_tmrCount (s : State) : s.fire.tmrCount = s.tmrCount := rfl
@[simp] theorem State.fire_handler (s : State) : s.fire.handler = s.handler := rfl
@[simp] theorem State.fire_line (s : State) : s.fire.line = s.line := rfl
@[simp] theorem State.fire_fault (s : State) : s.fire.fault = s.fault := rfl
@[simp] theorem State.fire_rxq (s : State) : s.fire.rxq = s.rxq := rfl
@[simp] theorem State.fire_txq (s : State) : s.fire.txq = s.txq := rfl
@[simp] theorem State.fire_image (s : State) : s.fire.image = s.image := rfl
@[simp] theorem State.fire_cmd (s : State) : s.fire.cmd = s.cmd := rfl
@[simp] theorem State.fire_history (s : State) : s.fire.history = s.history := rfl
@[simp] theorem State.fire_agenda (s : State) : s.fire.agenda = s.agenda := rfl
@[simp] theorem State.fire_draws (s : State) : s.fire.draws = s.draws := rfl
@[simp] theorem State.fire_resets (s : State) : s.fire.resets = s.resets := rfl

/-! `armTimer` -/

@[simp] theorem State.armTimer_cfg (s : State) : s.armTimer.cfg = s.cfg := by
  simp [State.armTimer]
@[simp] theorem State.armTimer_seq (s : State) : s.armTimer.seq = s.seq := by
  simp [State.armTimer]
@[simp] theorem State.armTimer_fgTx (s : State) : s.armTimer.fgTx = s.fgTx := by
  simp [State.armTimer]
@[simp] theorem State.armTimer_bootFlag (s : State) : s.armTimer.bootFlag = s.bootFlag := by
  simp [State.armTimer]
@[simp] theorem State.armTimer_cmdLen (s : State) : s.armTimer.cmdLen = s.cmdLen := by
  simp [State.armTimer]
@[simp] theorem State.armTimer_dataCnt (s : State) : s.armTimer.dataCnt = s.dataCnt := by
  simp [State.armTimer]
@[simp] theorem State.armTimer_serState (s : State) : s.armTimer.serState = s.serState := by
  simp [State.armTimer]
@[simp] theorem State.armTimer_byteIndex (s : State) : s.armTimer.byteIndex = s.byteIndex := by
  simp [State.armTimer]
@[simp] theorem State.armTimer_bitIndex (s : State) : s.armTimer.bitIndex = s.bitIndex := by
  simp [State.armTimer]
@[simp] theorem State.armTimer_tmrEn (s : State) : s.armTimer.tmrEn = s.tmrEn := by
  simp [State.armTimer]
@[simp] theorem State.armTimer_tmrCC (s : State) :
    s.armTimer.tmrCC = ⟨s.timerValue s.cfg.platform.t1, s.timerValue s.cfg.platform.t2, s.timerValue s.cfg.platform.t3,
      s.timerValue s.cfg.platform.t4⟩ := by
  simp [State.armTimer, PerChan.set, State.timerValue]
@[simp] theorem State.armTimer_tmrClr (s : State) : s.armTimer.tmrClr = ⟨false, false, false, true⟩ := by
  simp [State.armTimer, PerChan.set]
@[simp] theorem State.armTimer_tmrPeriod (s : State) : s.armTimer.tmrPeriod = s.timerValue s.cfg.platform.t4 := by
  simp [State.armTimer, State.timerValue]
@[simp] theorem State.armTimer_tmrNext (s : State) : s.armTimer.tmrNext = s.tmrNext := by
  simp [State.armTimer]
@[simp] theorem State.armTimer_tmrPend (s : State) : s.armTimer.tmrPend = s.tmrPend := by
  simp [State.armTimer]
@[simp] theorem State.armTimer_tmrCount (s : State) : s.armTimer.tmrCount = s.tmrCount := by
  simp [State.armTimer]
@[simp] theorem State.armTimer_handler (s : State) : s.armTimer.handler = s.handler := by
  simp [State.armTimer]
@[simp] theorem State.armTimer_line (s : State) : s.armTimer.line = s.line := by
  simp [State.armTimer]
@[simp] theorem State.armTimer_fault (s : State) : s.armTimer.fault = s.fault := by
  simp [State.armTimer]
@[simp] theorem State.armTimer_rxq (s : State) : s.armTimer.rxq = s.rxq := by
  simp [State.armTimer]
@[simp] theorem State.armTimer_txq (s : State) : s.armTimer.txq = s.txq := by
  simp [State.armTimer]
@[simp] theorem State.armTimer_image (s : State) : s.armTimer.image = s.image := by
  simp [State.armTimer]
@[simp] theorem State.armTimer_cmd (s : State) : s.armTimer.cmd = s.cmd := by
  simp [State.armTimer]
@[simp] theorem State.armTimer_history (s : State) : s.armTimer.history = s.history := by
  simp [State.armTimer]
@[simp] theorem State.armTimer_agenda (s : State) : s.armTimer.agenda = s.agenda := by
  simp [State.armTimer]
@[simp] theorem State.armTimer_draws (s : State) : s.armTimer.draws = s.draws := by
  simp [State.armTimer]
@[simp] theorem State.armTimer_resets (s : State) : s.armTimer.resets = s.resets := by
  simp [State.armTimer]

/-! `recordPush` -/

@[simp] theorem State.recordPush_cfg (s : State) (b : Byte) : (s.recordPush b).cfg = s.cfg := rfl
@[simp] theorem State.recordPush_seq (s : State) (b : Byte) : (s.recordPush b).seq = s.seq := rfl
@[simp] theorem State.recordPush_fgTx (s : State) (b : Byte) : (s.recordPush b).fgTx = s.fgTx := rfl
@[simp] theorem State.recordPush_bootFlag (s : State) (b : Byte) : (s.recordPush b).bootFlag = s.bootFlag := rfl
@[simp] theorem State.recordPush_cmdLen (s : State) (b : Byte) : (s.recordPush b).cmdLen = s.cmdLen := rfl
@[simp] theorem State.recordPush_dataCnt (s : State) (b : Byte) : (s.recordPush b).dataCnt = s.dataCnt := rfl
@[simp] theorem State.recordPush_serState (s : State) (b : Byte) : (s.recordPush b).serState = s.serState := rfl
@[simp] theorem State.recordPush_byteIndex (s : State) (b : Byte) : (s.recordPush b).byteIndex = s.byteIndex := rfl
@[simp] theorem State.recordPush_bitIndex (s : State) (b : Byte) : (s.recordPush b).bitIndex = s.bitIndex := rfl
@[simp] theorem State.recordPush_tmrEn (s : State) (b : Byte) : (s.recordPush b).tmrEn = s.tmrEn := rfl
@[simp] theorem State.recordPush_tmrCC (s : State) (b : Byte) : (s.recordPush b).tmrCC = s.tmrCC := rfl
@[simp] theorem State.recordPush_tmrClr (s : State) (b : Byte) : (s.recordPush b).tmrClr = s.tmrClr := rfl
@[simp] theorem State.recordPush_tmrPeriod (s : State) (b : Byte) : (s.recordPush b).tmrPeriod = s.tmrPeriod := rfl
@[simp] theorem State.recordPush_tmrNext (s : State) (b : Byte) : (s.recordPush b).tmrNext = s.tmrNext := rfl
@[simp] theorem State.recordPush_tmrPend (s : State) (b : Byte) : (s.recordPush b).tmrPend = s.tmrPend := rfl
@[simp] theorem State.recordPush_tmrCount (s : State) (b : Byte) : (s.recordPush b).tmrCount = s.tmrCount := rfl
@[simp] theorem State.recordPush_handler (s : State) (b : Byte) : (s.recordPush b).handler = s.handler := rfl
@[simp] theorem State.recordPush_line (s : State) (b : Byte) : (s.recordPush b).line = s.line := rfl
@[simp] theorem State.recordPush_fault (s : State) (b : Byte) : (s.recordPush b).fault = s.fault := rfl
@[simp] theorem State.recordPush_rxq (s : State) (b : Byte) : (s.recordPush b).rxq = s.rxq := rfl
@[simp] theorem State.recordPush_txq (s : State) (b : Byte) : (s.recordPush b).txq = s.txq := rfl
@[simp] theorem State.recordPush_image (s : State) (b : Byte) : (s.recordPush b).image = s.image := rfl
@[simp] theorem State.recordPush_cmd (s : State) (b : Byte) : (s.recordPush b).cmd = s.cmd := rfl
@[simp] theorem State.recordPush_history (s : State) (b : Byte) :
    (s.recordPush b).history = .pushed b :: s.history := rfl
@[simp] theorem State.recordPush_agenda (s : State) (b : Byte) : (s.recordPush b).agenda = s.agenda := rfl
@[simp] theorem State.recordPush_draws (s : State) (b : Byte) : (s.recordPush b).draws = s.draws := rfl
@[simp] theorem State.recordPush_resets (s : State) (b : Byte) : (s.recordPush b).resets = s.resets := rfl

/-! `hostPush` -/

@[simp] theorem State.hostPush_cfg (s : State) (b : Byte) : (s.hostPush b).cfg = s.cfg := rfl
@[simp] theorem State.hostPush_seq (s : State) (b : Byte) : (s.hostPush b).seq = s.seq := rfl
@[simp] theorem State.hostPush_fgTx (s : State) (b : Byte) : (s.hostPush b).fgTx = s.fgTx := rfl
@[simp] theorem State.hostPush_bootFlag (s : State) (b : Byte) : (s.hostPush b).bootFlag = s.bootFlag := rfl
@[simp] theorem State.hostPush_cmdLen (s : State) (b : Byte) : (s.hostPush b).cmdLen = s.cmdLen := rfl
@[simp] theorem State.hostPush_dataCnt (s : State) (b : Byte) : (s.hostPush b).dataCnt = s.dataCnt := rfl
@[simp] theorem State.hostPush_serState (s : State) (b : Byte) : (s.hostPush b).serState = s.serState := rfl
@[simp] theorem State.hostPush_byteIndex (s : State) (b : Byte) : (s.hostPush b).byteIndex = s.byteIndex := rfl
@[simp] theorem State.hostPush_bitIndex (s : State) (b : Byte) : (s.hostPush b).bitIndex = s.bitIndex := rfl
@[simp] theorem State.hostPush_tmrEn (s : State) (b : Byte) : (s.hostPush b).tmrEn = s.tmrEn := rfl
@[simp] theorem State.hostPush_tmrCC (s : State) (b : Byte) : (s.hostPush b).tmrCC = s.tmrCC := rfl
@[simp] theorem State.hostPush_tmrClr (s : State) (b : Byte) : (s.hostPush b).tmrClr = s.tmrClr := rfl
@[simp] theorem State.hostPush_tmrPeriod (s : State) (b : Byte) : (s.hostPush b).tmrPeriod = s.tmrPeriod := rfl
@[simp] theorem State.hostPush_tmrNext (s : State) (b : Byte) : (s.hostPush b).tmrNext = s.tmrNext := rfl
@[simp] theorem State.hostPush_tmrPend (s : State) (b : Byte) : (s.hostPush b).tmrPend = s.tmrPend := rfl
@[simp] theorem State.hostPush_tmrCount (s : State) (b : Byte) : (s.hostPush b).tmrCount = s.tmrCount := rfl
@[simp] theorem State.hostPush_handler (s : State) (b : Byte) : (s.hostPush b).handler = s.handler := rfl
@[simp] theorem State.hostPush_line (s : State) (b : Byte) : (s.hostPush b).line = s.line := rfl
@[simp] theorem State.hostPush_fault (s : State) (b : Byte) : (s.hostPush b).fault = s.fault := rfl
@[simp] theorem State.hostPush_rxq (s : State) (b : Byte) : (s.hostPush b).rxq = s.rxq ++ [b] := rfl
@[simp] theorem State.hostPush_txq (s : State) (b : Byte) : (s.hostPush b).txq = s.txq := rfl
@[simp] theorem State.hostPush_image (s : State) (b : Byte) : (s.hostPush b).image = s.image := rfl
@[simp] theorem State.hostPush_cmd (s : State) (b : Byte) : (s.hostPush b).cmd = s.cmd := rfl
@[simp] theorem State.hostPush_history (s : State) (b : Byte) : (s.hostPush b).history = .pushed b :: s.history := rfl
@[simp] theorem State.hostPush_agenda (s : State) (b : Byte) : (s.hostPush b).agenda = s.agenda := rfl
@[simp] theorem State.hostPush_draws (s : State) (b : Byte) : (s.hostPush b).draws = s.draws := rfl
@[simp] theorem State.hostPush_resets (s : State) (b : Byte) : (s.hostPush b).resets = s.resets := rfl

/-! `hostPull` -/

@[simp] theorem State.hostPull_cfg (s : State) (b : Byte) : (s.hostPull b).cfg = s.cfg := rfl
@[simp] theorem State.hostPull_seq (s : State) (b : Byte) : (s.hostPull b).seq = s.seq := rfl
@[simp] theorem State.hostPull_fgTx (s : State) (b : Byte) : (s.hostPull b).fgTx = s.fgTx := rfl
@[simp] theorem State.hostPull_bootFlag (s : State) (b : Byte) : (s.hostPull b).bootFlag = s.bootFlag := rfl
@[simp] theorem State.hostPull_cmdLen (s : State) (b : Byte) : (s.hostPull b).cmdLen = s.cmdLen := rfl
@[simp] theorem State.hostPull_dataCnt (s : State) (b : Byte) : (s.hostPull b).dataCnt = s.dataCnt := rfl
@[simp] theorem State.hostPull_serState (s : State) (b : Byte) : (s.hostPull b).serState = s.serState := rfl
@[simp] theorem State.hostPull_byteIndex (s : State) (b : Byte) : (s.hostPull b).byteIndex = s.byteIndex := rfl
@[simp] theorem State.hostPull_bitIndex (s : State) (b : Byte) : (s.hostPull b).bitIndex = s.bitIndex := rfl
@[simp] theorem State.hostPull_tmrEn (s : State) (b : Byte) : (s.hostPull b).tmrEn = s.tmrEn := rfl
@[simp] theorem State.hostPull_tmrCC (s : State) (b : Byte) : (s.hostPull b).tmrCC = s.tmrCC := rfl
@[simp] theorem State.hostPull_tmrClr (s : State) (b : Byte) : (s.hostPull b).tmrClr = s.tmrClr := rfl
@[simp] theorem State.hostPull_tmrPeriod (s : State) (b : Byte) : (s.hostPull b).tmrPeriod = s.tmrPeriod := rfl
@[simp] theorem State.hostPull_tmrNext (s : State) (b : Byte) : (s.hostPull b).tmrNext = s.tmrNext := rfl
@[simp] theorem State.hostPull_tmrPend (s : State) (b : Byte) : (s.hostPull b).tmrPend = s.tmrPend := rfl
@[simp] theorem State.hostPull_tmrCount (s : State) (b : Byte) : (s.hostPull b).tmrCount = s.tmrCount := rfl
@[simp] theorem State.hostPull_handler (s : State) (b : Byte) : (s.hostPull b).handler = s.handler := rfl
@[simp] theorem State.hostPull_line (s : State) (b : Byte) : (s.hostPull b).line = s.line := rfl
@[simp] theorem State.hostPull_fault (s : State) (b : Byte) : (s.hostPull b).fault = s.fault := rfl
@[simp] theorem State.hostPull_rxq (s : State) (b : Byte) : (s.hostPull b).rxq = s.rxq := rfl
@[simp] theorem State.hostPull_txq (s : State) (b : Byte) : (s.hostPull b).txq = s.txq.tail := rfl
@[simp] theorem State.hostPull_image (s : State) (b : Byte) : (s.hostPull b).image = s.image := rfl
@[simp] theorem State.hostPull_cmd (s : State) (b : Byte) : (s.hostPull b).cmd = s.cmd := rfl
@[simp] theorem State.hostPull_history (s : State) (b : Byte) :
    (s.hostPull b).history = .delivered b :: s.history := rfl
@[simp] theorem State.hostPull_agenda (s : State) (b : Byte) : (s.hostPull b).agenda = s.agenda := rfl
@[simp] theorem State.hostPull_draws (s : State) (b : Byte) : (s.hostPull b).draws = s.draws := rfl
@[simp] theorem State.hostPull_resets (s : State) (b : Byte) : (s.hostPull b).resets = s.resets := rfl

/-! `platformReset` -/

@[simp] theorem State.platformReset_cfg (s : State) : s.platformReset.cfg = s.cfg := rfl
@[simp] theorem State.platformReset_seq (s : State) : s.platformReset.seq = .rxCmd1 := rfl
@[simp] theorem State.platformReset_fgTx (s : State) : s.platformReset.fgTx = none := rfl
@[simp] theorem State.platformReset_bootFlag (s : State) : s.platformReset.bootFlag = false := rfl
@[simp] theorem State.platformReset_cmdLen (s : State) : s.platformReset.cmdLen = 0 := rfl
@[simp] theorem State.platformReset_dataCnt (s : State) : s.platformReset.dataCnt = 0 := rfl
@[simp] theorem State.platformReset_serState (s : State) : s.platformReset.serState = .idle := rfl
@[simp] theorem State.platformReset_byteIndex (s : State) : s.platformReset.byteIndex = 0 := rfl
@[simp] theorem State.platformReset_bitIndex (s : State) : s.platformReset.bitIndex = 0 := rfl
@[simp] theorem State.platformReset_tmrEn (s : State) : s.platformReset.tmrEn = false := rfl
@[simp] theorem State.platformReset_tmrCC (s : State) : s.platformReset.tmrCC = ⟨0, 0, 0, 0⟩ := rfl
@[simp] theorem State.platformReset_tmrClr (s : State) : s.platformReset.tmrClr = ⟨false, false, false, false⟩ := rfl
@[simp] theorem State.platformReset_tmrPeriod (s : State) : s.platformReset.tmrPeriod = 0 := rfl
@[simp] theorem State.platformReset_tmrNext (s : State) : s.platformReset.tmrNext = .chA := rfl
@[simp] theorem State.platformReset_tmrPend (s : State) :
    s.platformReset.tmrPend = ⟨false, false, false, false⟩ := rfl
@[simp] theorem State.platformReset_tmrCount (s : State) : s.platformReset.tmrCount = 0 := rfl
@[simp] theorem State.platformReset_handler (s : State) : s.platformReset.handler = none := rfl
@[simp] theorem State.platformReset_line (s : State) : s.platformReset.line = deassertedLines s.cfg.platform := rfl
@[simp] theorem State.platformReset_fault (s : State) : s.platformReset.fault = .noFault := rfl
@[simp] theorem State.platformReset_rxq (s : State) : s.platformReset.rxq = [] := rfl
@[simp] theorem State.platformReset_txq (s : State) : s.platformReset.txq = [] := rfl
@[simp] theorem State.platformReset_image (s : State) : s.platformReset.image = [] := rfl
@[simp] theorem State.platformReset_cmd (s : State) : s.platformReset.cmd = [] := rfl
@[simp] theorem State.platformReset_history (s : State) : s.platformReset.history = s.history := rfl
@[simp] theorem State.platformReset_agenda (s : State) : s.platformReset.agenda = s.agenda := rfl
@[simp] theorem State.platformReset_draws (s : State) : s.platformReset.draws = s.draws := rfl
@[simp] theorem State.platformReset_resets (s : State) : s.platformReset.resets = s.resets + 1 := rfl

/-! `sentByte`, whose other fields depend on a test. -/

@[simp] theorem State.sentByte_cfg (s : State) (m : Msg) (k : Nat) : (s.sentByte m k).cfg = s.cfg := by
  unfold State.sentByte; split <;> rfl
@[simp] theorem State.sentByte_bootFlag (s : State) (m : Msg) (k : Nat) : (s.sentByte m k).bootFlag = s.bootFlag := by
  unfold State.sentByte; split <;> rfl
@[simp] theorem State.sentByte_cmdLen (s : State) (m : Msg) (k : Nat) : (s.sentByte m k).cmdLen = s.cmdLen := by
  unfold State.sentByte; split <;> rfl
@[simp] theorem State.sentByte_dataCnt (s : State) (m : Msg) (k : Nat) : (s.sentByte m k).dataCnt = s.dataCnt := by
  unfold State.sentByte; split <;> rfl
@[simp] theorem State.sentByte_serState (s : State) (m : Msg) (k : Nat) : (s.sentByte m k).serState = s.serState := by
  unfold State.sentByte; split <;> rfl
@[simp] theorem State.sentByte_byteIndex (s : State) (m : Msg) (k : Nat) : (s.sentByte m k).byteIndex = s.byteIndex := by
  unfold State.sentByte; split <;> rfl
@[simp] theorem State.sentByte_bitIndex (s : State) (m : Msg) (k : Nat) : (s.sentByte m k).bitIndex = s.bitIndex := by
  unfold State.sentByte; split <;> rfl
@[simp] theorem State.sentByte_tmrEn (s : State) (m : Msg) (k : Nat) : (s.sentByte m k).tmrEn = s.tmrEn := by
  unfold State.sentByte; split <;> rfl
@[simp] theorem State.sentByte_tmrCC (s : State) (m : Msg) (k : Nat) : (s.sentByte m k).tmrCC = s.tmrCC := by
  unfold State.sentByte; split <;> rfl
@[simp] theorem State.sentByte_tmrClr (s : State) (m : Msg) (k : Nat) : (s.sentByte m k).tmrClr = s.tmrClr := by
  unfold State.sentByte; split <;> rfl
@[simp] theorem State.sentByte_tmrPeriod (s : State) (m : Msg) (k : Nat) : (s.sentByte m k).tmrPeriod = s.tmrPeriod := by
  unfold State.sentByte; split <;> rfl
@[simp] theorem State.sentByte_tmrNext (s : State) (m : Msg) (k : Nat) : (s.sentByte m k).tmrNext = s.tmrNext := by
  unfold State.sentByte; split <;> rfl
@[simp] theorem State.sentByte_tmrPend (s : State) (m : Msg) (k : Nat) : (s.sentByte m k).tmrPend = s.tmrPend := by
  unfold State.sentByte; split <;> rfl
@[simp] theorem State.sentByte_tmrCount (s : State) (m : Msg) (k : Nat) : (s.sentByte m k).tmrCount = s.tmrCount := by
  unfold State.sentByte; split <;> rfl
@[simp] theorem State.sentByte_handler (s : State) (m : Msg) (k : Nat) : (s.sentByte m k).handler = s.handler := by
  unfold State.sentByte; split <;> rfl
@[simp] theorem State.sentByte_line (s : State) (m : Msg) (k : Nat) : (s.sentByte m k).line = s.line := by
  unfold State.sentByte; split <;> rfl
@[simp] theorem State.sentByte_fault (s : State) (m : Msg) (k : Nat) : (s.sentByte m k).fault = s.fault := by
  unfold State.sentByte; split <;> rfl
@[simp] theorem State.sentByte_rxq (s : State) (m : Msg) (k : Nat) : (s.sentByte m k).rxq = s.rxq := by
  unfold State.sentByte; split <;> rfl
@[simp] theorem State.sentByte_txq (s : State) (m : Msg) (k : Nat) : (s.sentByte m k).txq = s.txq := by
  unfold State.sentByte; split <;> rfl
@[simp] theorem State.sentByte_image (s : State) (m : Msg) (k : Nat) : (s.sentByte m k).image = s.image := by
  unfold State.sentByte; split <;> rfl
@[simp] theorem State.sentByte_cmd (s : State) (m : Msg) (k : Nat) : (s.sentByte m k).cmd = s.cmd := by
  unfold State.sentByte; split <;> rfl
@[simp] theorem State.sentByte_history (s : State) (m : Msg) (k : Nat) : (s.sentByte m k).history = s.history := by
  unfold State.sentByte; split <;> rfl
@[simp] theorem State.sentByte_agenda (s : State) (m : Msg) (k : Nat) : (s.sentByte m k).agenda = s.agenda := by
  unfold State.sentByte; split <;> rfl
@[simp] theorem State.sentByte_draws (s : State) (m : Msg) (k : Nat) : (s.sentByte m k).draws = s.draws := by
  unfold State.sentByte; split <;> rfl
@[simp] theorem State.sentByte_resets (s : State) (m : Msg) (k : Nat) : (s.sentByte m k).resets = s.resets := by
  unfold State.sentByte; split <;> rfl

/-! `advanceCursor`, whose other fields depend on a test. -/

@[simp] theorem State.advanceCursor_cfg (s : State) : s.advanceCursor.cfg = s.cfg := by
  unfold State.advanceCursor; split <;> rfl
@[simp] theorem State.advanceCursor_seq (s : State) : s.advanceCursor.seq = s.seq := by
  unfold State.advanceCursor; split <;> rfl
@[simp] theorem State.advanceCursor_fgTx (s : State) : s.advanceCursor.fgTx = s.fgTx := by
  unfold State.advanceCursor; split <;> rfl
@[simp] theorem State.advanceCursor_bootFlag (s : State) : s.advanceCursor.bootFlag = s.bootFlag := by
  unfold State.advanceCursor; split <;> rfl
@[simp] theorem State.advanceCursor_cmdLen (s : State) : s.advanceCursor.cmdLen = s.cmdLen := by
  unfold State.advanceCursor; split <;> rfl
@[simp] theorem State.advanceCursor_dataCnt (s : State) : s.advanceCursor.dataCnt = s.dataCnt := by
  unfold State.advanceCursor; split <;> rfl
@[simp] theorem State.advanceCursor_serState (s : State) : s.advanceCursor.serState = s.serState := by
  unfold State.advanceCursor; split <;> rfl
@[simp] theorem State.advanceCursor_tmrEn (s : State) : s.advanceCursor.tmrEn = s.tmrEn := by
  unfold State.advanceCursor; split <;> rfl
@[simp] theorem State.advanceCursor_tmrCC (s : State) : s.advanceCursor.tmrCC = s.tmrCC := by
  unfold State.advanceCursor; split <;> rfl
@[simp] theorem State.advanceCursor_tmrClr (s : State) : s.advanceCursor.tmrClr = s.tmrClr := by
  unfold State.advanceCursor; split <;> rfl
@[simp] theorem State.advanceCursor_tmrPeriod (s : State) : s.advanceCursor.tmrPeriod = s.tmrPeriod := by
  unfold State.advanceCursor; split <;> rfl
@[simp] theorem State.advanceCursor_tmrNext (s : State) : s.advanceCursor.tmrNext = s.tmrNext := by
  unfold State.advanceCursor; split <;> rfl
@[simp] theorem State.advanceCursor_tmrPend (s : State) : s.advanceCursor.tmrPend = s.tmrPend := by
  unfold State.advanceCursor; split <;> rfl
@[simp] theorem State.advanceCursor_tmrCount (s : State) : s.advanceCursor.tmrCount = s.tmrCount := by
  unfold State.advanceCursor; split <;> rfl
@[simp] theorem State.advanceCursor_handler (s : State) : s.advanceCursor.handler = s.handler := by
  unfold State.advanceCursor; split <;> rfl
@[simp] theorem State.advanceCursor_line (s : State) : s.advanceCursor.line = s.line := by
  unfold State.advanceCursor; split <;> rfl
@[simp] theorem State.advanceCursor_fault (s : State) : s.advanceCursor.fault = s.fault := by
  unfold State.advanceCursor; split <;> rfl
@[simp] theorem State.advanceCursor_rxq (s : State) : s.advanceCursor.rxq = s.rxq := by
  unfold State.advanceCursor; split <;> rfl
@[simp] theorem State.advanceCursor_txq (s : State) : s.advanceCursor.txq = s.txq := by
  unfold State.advanceCursor; split <;> rfl
@[simp] theorem State.advanceCursor_image (s : State) : s.advanceCursor.image = s.image := by
  unfold State.advanceCursor; split <;> rfl
@[simp] theorem State.advanceCursor_cmd (s : State) : s.advanceCursor.cmd = s.cmd := by
  unfold State.advanceCursor; split <;> rfl
@[simp] theorem State.advanceCursor_history (s : State) : s.advanceCursor.history = s.history := by
  unfold State.advanceCursor; split <;> rfl
@[simp] theorem State.advanceCursor_agenda (s : State) : s.advanceCursor.agenda = s.agenda := by
  unfold State.advanceCursor; split <;> rfl
@[simp] theorem State.advanceCursor_draws (s : State) : s.advanceCursor.draws = s.draws := by
  unfold State.advanceCursor; split <;> rfl
@[simp] theorem State.advanceCursor_resets (s : State) : s.advanceCursor.resets = s.resets := by
  unfold State.advanceCursor; split <;> rfl

/-! `tickChannel`, whose other fields depend on a test. -/

@[simp] theorem State.tickChannel_cfg (s : State) (ch : Chan) : (s.tickChannel ch).cfg = s.cfg := by
  unfold State.tickChannel; dsimp only; split <;> (try split) <;> rfl
@[simp] theorem State.tickChannel_seq (s : State) (ch : Chan) : (s.tickChannel ch).seq = s.seq := by
  unfold State.tickChannel; dsimp only; split <;> (try split) <;> rfl
@[simp] theorem State.tickChannel_fgTx (s : State) (ch : Chan) : (s.tickChannel ch).fgTx = s.fgTx := by
  unfold State.tickChannel; dsimp only; split <;> (try split) <;> rfl
@[simp] theorem State.tickChannel_bootFlag (s : State) (ch : Chan) : (s.tickChannel ch).bootFlag = s.bootFlag := by
  unfold State.tickChannel; dsimp only; split <;> (try split) <;> rfl
@[simp] theorem State.tickChannel_cmdLen (s : State) (ch : Chan) : (s.tickChannel ch).cmdLen = s.cmdLen := by
  unfold State.tickChannel; dsimp only; split <;> (try split) <;> rfl
@[simp] theorem State.tickChannel_dataCnt (s : State) (ch : Chan) : (s.tickChannel ch).dataCnt = s.dataCnt := by
  unfold State.tickChannel; dsimp only; split <;> (try split) <;> rfl
@[simp] theorem State.tickChannel_serState (s : State) (ch : Chan) : (s.tickChannel ch).serState = s.serState := by
  unfold State.tickChannel; dsimp only; split <;> (try split) <;> rfl
@[simp] theorem State.tickChannel_byteIndex (s : State) (ch : Chan) : (s.tickChannel ch).byteIndex = s.byteIndex := by
  unfold State.tickChannel; dsimp only; split <;> (try split) <;> rfl
@[simp] theorem State.tickChannel_bitIndex (s : State) (ch : Chan) : (s.tickChannel ch).bitIndex = s.bitIndex := by
  unfold State.tickChannel; dsimp only; split <;> (try split) <;> rfl
@[simp] theorem State.tickChannel_tmrEn (s : State) (ch : Chan) : (s.tickChannel ch).tmrEn = s.tmrEn := by
  unfold State.tickChannel; dsimp only; split <;> (try split) <;> rfl
@[simp] theorem State.tickChannel_tmrCC (s : State) (ch : Chan) : (s.tickChannel ch).tmrCC = s.tmrCC := by
  unfold State.tickChannel; dsimp only; split <;> (try split) <;> rfl
@[simp] theorem State.tickChannel_tmrClr (s : State) (ch : Chan) : (s.tickChannel ch).tmrClr = s.tmrClr := by
  unfold State.tickChannel; dsimp only; split <;> (try split) <;> rfl
@[simp] theorem State.tickChannel_tmrPeriod (s : State) (ch : Chan) : (s.tickChannel ch).tmrPeriod = s.tmrPeriod := by
  unfold State.tickChannel; dsimp only; split <;> (try split) <;> rfl
@[simp] theorem State.tickChannel_tmrNext (s : State) (ch : Chan) : (s.tickChannel ch).tmrNext = s.tmrNext := by
  unfold State.tickChannel; dsimp only; split <;> (try split) <;> rfl
@[simp] theorem State.tickChannel_handler (s : State) (ch : Chan) : (s.tickChannel ch).handler = s.handler := by
  unfold State.tickChannel; dsimp only; split <;> (try split) <;> rfl
@[simp] theorem State.tickChannel_line (s : State) (ch : Chan) : (s.tickChannel ch).line = s.line := by
  unfold State.tickChannel; dsimp only; split <;> (try split) <;> rfl
@[simp] theorem State.tickChannel_fault (s : State) (ch : Chan) : (s.tickChannel ch).fault = s.fault := by
  unfold State.tickChannel; dsimp only; split <;> (try split) <;> rfl
@[simp] theorem State.tickChannel_rxq (s : State) (ch : Chan) : (s.tickChannel ch).rxq = s.rxq := by
  unfold State.tickChannel; dsimp only; split <;> (try split) <;> rfl
@[simp] theorem State.tickChannel_txq (s : State) (ch : Chan) : (s.tickChannel ch).txq = s.txq := by
  unfold State.tickChannel; dsimp only; split <;> (try split) <;> rfl
@[simp] theorem State.tickChannel_image (s : State) (ch : Chan) : (s.tickChannel ch).image = s.image := by
  unfold State.tickChannel; dsimp only; split <;> (try split) <;> rfl
@[simp] theorem State.tickChannel_cmd (s : State) (ch : Chan) : (s.tickChannel ch).cmd = s.cmd := by
  unfold State.tickChannel; dsimp only; split <;> (try split) <;> rfl
@[simp] theorem State.tickChannel_history (s : State) (ch : Chan) : (s.tickChannel ch).history = s.history := by
  unfold State.tickChannel; dsimp only; split <;> (try split) <;> rfl
@[simp] theorem State.tickChannel_agenda (s : State) (ch : Chan) : (s.tickChannel ch).agenda = s.agenda := by
  unfold State.tickChannel; dsimp only; split <;> (try split) <;> rfl
@[simp] theorem State.tickChannel_draws (s : State) (ch : Chan) : (s.tickChannel ch).draws = s.draws := by
  unfold State.tickChannel; dsimp only; split <;> (try split) <;> rfl
@[simp] theorem State.tickChannel_resets (s : State) (ch : Chan) : (s.tickChannel ch).resets = s.resets := by
  unfold State.tickChannel; dsimp only; split <;> (try split) <;> rfl

/-! `afterMove`, whose other fields depend on a test. -/

@[simp] theorem State.afterMove_cfg (s : State) : s.afterMove.cfg = s.cfg := by
  unfold State.afterMove; split <;> rfl
@[simp] theorem State.afterMove_seq (s : State) : s.afterMove.seq = s.seq := by
  unfold State.afterMove; split <;> rfl
@[simp] theorem State.afterMove_fgTx (s : State) : s.afterMove.fgTx = s.fgTx := by
  unfold State.afterMove; split <;> rfl
@[simp] theorem State.afterMove_bootFlag (s : State) : s.afterMove.bootFlag = s.bootFlag := by
  unfold State.afterMove; split <;> rfl
@[simp] theorem State.afterMove_cmdLen (s : State) : s.afterMove.cmdLen = s.cmdLen := by
  unfold State.afterMove; split <;> rfl
@[simp] theorem State.afterMove_dataCnt (s : State) : s.afterMove.dataCnt = s.dataCnt := by
  unfold State.afterMove; split <;> rfl
@[simp] theorem State.afterMove_serState (s : State) : s.afterMove.serState = s.serState := by
  unfold State.afterMove; split <;> rfl
@[simp] theorem State.afterMove_byteIndex (s : State) : s.afterMove.byteIndex = s.byteIndex := by
  unfold State.afterMove; split <;> rfl
@[simp] theorem State.afterMove_bitIndex (s : State) : s.afterMove.bitIndex = s.bitIndex := by
  unfold State.afterMove; split <;> rfl
@[simp] theorem State.afterMove_tmrEn (s : State) : s.afterMove.tmrEn = s.tmrEn := by
  unfold State.afterMove; split <;> rfl
@[simp] theorem State.afterMove_tmrCC (s : State) : s.afterMove.tmrCC = s.tmrCC := by
  unfold State.afterMove; split <;> rfl
@[simp] theorem State.afterMove_tmrClr (s : State) : s.afterMove.tmrClr = s.tmrClr := by
  unfold State.afterMove; split <;> rfl
@[simp] theorem State.afterMove_tmrPeriod (s : State) : s.afterMove.tmrPeriod = s.tmrPeriod := by
  unfold State.afterMove; split <;> rfl
@[simp] theorem State.afterMove_tmrNext (s : State) : s.afterMove.tmrNext = s.tmrNext := by
  unfold State.afterMove; split <;> rfl
@[simp] theorem State.afterMove_tmrPend (s : State) : s.afterMove.tmrPend = s.tmrPend := by
  unfold State.afterMove; split <;> rfl
@[simp] theorem State.afterMove_tmrCount (s : State) : s.afterMove.tmrCount = s.tmrCount := by
  unfold State.afterMove; split <;> rfl
@[simp] theorem State.afterMove_handler (s : State) : s.afterMove.handler = s.handler := by
  unfold State.afterMove; split <;> rfl
@[simp] theorem State.afterMove_line (s : State) : s.afterMove.line = s.line := by
  unfold State.afterMove; split <;> rfl
@[simp] theorem State.afterMove_fault (s : State) : s.afterMove.fault = s.fault := by
  unfold State.afterMove; split <;> rfl
@[simp] theorem State.afterMove_rxq (s : State) : s.afterMove.rxq = s.rxq := by
  unfold State.afterMove; split <;> rfl
@[simp] theorem State.afterMove_txq (s : State) : s.afterMove.txq = s.txq := by
  unfold State.afterMove; split <;> rfl
@[simp] theorem State.afterMove_image (s : State) : s.afterMove.image = s.image := by
  unfold State.afterMove; split <;> rfl
@[simp] theorem State.afterMove_cmd (s : State) : s.afterMove.cmd = s.cmd := by
  unfold State.afterMove; split <;> rfl
@[simp] theorem State.afterMove_history (s : State) : s.afterMove.history = s.history := by
  unfold State.afterMove; split <;> rfl
@[simp] theorem State.afterMove_resets (s : State) : s.afterMove.resets = s.resets := by
  unfold State.afterMove; split <;> rfl

end Sys2Proof.Machine
end

