-- ==== Sys2Proof/Laws/Ops.lean ====
section
/-! SUPPORT. For each shared operation that tests its state, everything it can do, said once. -/

namespace Sys2Proof.Machine

/-! The four-fold records. -/

@[simp] theorem PerChan.get_set_same {α : Type} (v : PerChan α) (ch : Chan) (x : α) : (v.set ch x).get ch = x := by
  cases ch <;> rfl

theorem PerChan.get_set {α : Type} (v : PerChan α) (ch ch' : Chan) (x : α) :
    (v.set ch x).get ch' = if ch' = ch then x else v.get ch' := by
  cases ch <;> cases ch' <;> rfl

@[simp] theorem Lines.get_set_same (v : Lines) (id : LineId) (x : Level) : (v.set id x).get id = x := by
  cases id <;> rfl

theorem Lines.get_set (v : Lines) (id id' : LineId) (x : Level) :
    (v.set id x).get id' = if id' = id then x else v.get id' := by
  cases id <;> cases id' <;> rfl

@[simp] theorem Level.flip_flip (l : Level) : l.flip.flip = l := by cases l <;> rfl

/-! The foreground. -/

/-- After byte `k` of a message: the next byte is due, or the receive returns. -/
theorem State.sentByte_cases (s : State) (m : Msg) (k : Nat) :
    (k + 1 = m.bytes.length ∧ s.sentByte m k = { s with fgTx := none, seq := nextPhase s.seq })
      ∨ (k + 1 ≠ m.bytes.length ∧ s.sentByte m k = { s with fgTx := some ⟨m, k + 1⟩ }) := by
  unfold State.sentByte
  split
  · exact .inl ⟨by assumption, rfl⟩
  · exact .inr ⟨by assumption, rfl⟩

/-- A completed line's command: a reply begins (and BOOT_FLAG is set), or the receive returns. -/
theorem State.command_cases (s : State) (k : LineKind) :
    (k = .transfer ∧ s.command k = { s with fgTx := some ⟨.transferStarted, 0⟩ })
      ∨ (k = .boot3wb ∧ s.command k = { s with bootFlag := true, fgTx := some ⟨.bootloadStarted, 0⟩ })
      ∨ (k = .other ∧ s.command k = { s with seq := nextPhase s.seq }) := by
  cases k
  · exact .inl ⟨rfl, rfl⟩
  · exact .inr (.inl ⟨rfl, rfl⟩)
  · exact .inr (.inr ⟨rfl, rfl⟩)

theorem classify_transfer_iff (line : List Byte) : classify line = .transfer ↔ line = transferLiteral := by
  unfold classify
  constructor
  · intro h
    split at h
    · next h1 => exact h1.2
    · split at h <;> cases h
  · rintro rfl
    rfl

theorem classify_boot3wb_iff (line : List Byte) : classify line = .boot3wb ↔ line = boot3wbLiteral := by
  unfold classify
  constructor
  · intro h
    split at h
    · cases h
    · split at h
      · next h1 => exact h1.2
      · cases h
  · rintro rfl
    rfl

/-! The serializer. -/

/-- The cursor's advance: into the next byte from bit 7, else to the next bit. -/
theorem State.advanceCursor_cases (s : State) :
    (s.bitIndex = 7 ∧ s.advanceCursor = { s with bitIndex := 0, byteIndex := s.byteIndex + 1 })
      ∨ (s.bitIndex ≠ 7 ∧ s.advanceCursor = { s with bitIndex := s.bitIndex + 1 }) := by
  unfold State.advanceCursor
  split
  · exact .inl ⟨by assumption, rfl⟩
  · exact .inr ⟨by assumption, rfl⟩

/-- EVT_A's body: a fault outside IMAGE, else the data line's write and the cursor's advance. -/
theorem State.evtABody_cases (s : State) :
    (imageSize ≤ s.byteIndex.toNat ∧ s.evtABody = s.raiseFault .imageOob)
      ∨ (s.byteIndex.toNat < imageSize
          ∧ s.evtABody = (s.setLine .data (dataLevel s.evtBit) (some .chA)).advanceCursor) := by
  unfold State.evtABody
  split
  · exact .inl ⟨by assumption, rfl⟩
  · exact .inr ⟨by omega, rfl⟩

/-- EVT_B's body writes LATCH, asserted exactly at a word boundary. -/
theorem State.evtBBody_eq (s : State) :
    s.evtBBody = s.setLine .latch (if s.atBoundary then s.asserted .latch else s.deasserted .latch) (some .chB) := by
  unfold State.evtBBody
  split <;> simp [*]

/-- EVT_D's body: the clock rises; at the terminal cursor FINISH is asserted and the handler stays in progress. -/
theorem State.evtDBody_cases (s : State) :
    (s.atTerminal ∧ s.evtDBody =
        { (s.setLine .clock (s.deasserted .clock) (some .chD)).setLine .finish (s.asserted .finish) (some .chD) with
            handler := some 0 })
      ∨ (¬ s.atTerminal ∧ s.evtDBody = s.setLine .clock (s.deasserted .clock) (some .chD)) := by
  unfold State.evtDBody
  by_cases h : s.atTerminal
  · exact .inl ⟨h, by
      have h' : (s.setLine .clock (s.deasserted .clock) (some .chD)).atTerminal := h
      simp only [if_pos h']
      rfl⟩
  · exact .inr ⟨h, by
      have h' : ¬ (s.setLine .clock (s.deasserted .clock) (some .chD)).atTerminal := h
      simp only [if_neg h']⟩

/-- The handler: the channel's event while RUNNING, and nothing otherwise. -/
theorem State.runHandler_cases (s : State) (ch : Chan) :
    (s.serState ≠ .running ∧ s.runHandler ch = s)
      ∨ (s.serState = .running ∧ ch = .chA ∧ s.runHandler ch = s.evtABody)
      ∨ (s.serState = .running ∧ ch = .chB ∧ s.runHandler ch = s.evtBBody)
      ∨ (s.serState = .running ∧ ch = .chC ∧ s.runHandler ch = s.evtCBody)
      ∨ (s.serState = .running ∧ ch = .chD ∧ s.runHandler ch = s.evtDBody) := by
  unfold State.runHandler
  cases h : s.serState <;> cases ch <;> simp

/-! The timer. -/

theorem ticksHeld_lt {bits v : Nat} : ticksHeld bits v < 2 ^ bits := by
  unfold ticksHeld
  split
  · assumption
  · exact Nat.mod_lt _ (Nat.pow_pos (by decide))

theorem ticksHeld_eq {bits v : Nat} (h : v < 2 ^ bits) : ticksHeld bits v = v := if_pos h

/-- One channel's part of a tick. -/
theorem State.tickChannel_cases (s : State) (ch : Chan) :
    (s.tmrCount ≠ s.tmrCC.get ch ∧ s.tickChannel ch = s)
      ∨ (s.tmrCount = s.tmrCC.get ch ∧ s.tmrClr.get ch = false ∧ s.tickChannel ch = s.setPend ch true)
      ∨ (s.tmrCount = s.tmrCC.get ch ∧ s.tmrClr.get ch = true
          ∧ s.tickChannel ch = { s.setPend ch true with tmrCount := 0 }) := by
  unfold State.tickChannel
  by_cases h : s.tmrCount = s.tmrCC.get ch
  · cases h2 : s.tmrClr.get ch
    · exact .inr (.inl ⟨h, rfl, by simp only [if_pos h]; rfl⟩)
    · exact .inr (.inr ⟨h, rfl, by simp only [if_pos h]; rfl⟩)
  · exact .inl ⟨h, by simp only [if_neg h]⟩

/-- What a tick of one channel leaves alone: everything but TMR_PEND and TMR_COUNT. -/
theorem State.tickChannel_frame (s : State) (ch : Chan) :
    s.tickChannel ch =
      { s with tmrPend := (s.tickChannel ch).tmrPend, tmrCount := (s.tickChannel ch).tmrCount } := by
  obtain ⟨-, h⟩ | ⟨-, -, h⟩ | ⟨-, -, h⟩ := s.tickChannel_cases ch <;> rw [h] <;> rfl

/-- What a tick leaves alone: everything but TMR_PEND and TMR_COUNT. -/
theorem State.tick_frame (s : State) :
    s.tick = { s with tmrPend := s.tick.tmrPend, tmrCount := s.tick.tmrCount } := by
  unfold State.tick
  simp only
  generalize h0 : { s with tmrCount := (s.tmrCount + 1) % 2 ^ s.cfg.platform.timerBits } = s0
  have e0 : s0 = { s with tmrPend := s0.tmrPend, tmrCount := s0.tmrCount } := by rw [← h0]
  generalize h1 : s0.tickChannel .chA = s1
  have e1 : s1 = { s with tmrPend := s1.tmrPend, tmrCount := s1.tmrCount } := by
    rw [← h1, State.tickChannel_frame, e0]
  generalize h2 : s1.tickChannel .chB = s2
  have e2 : s2 = { s with tmrPend := s2.tmrPend, tmrCount := s2.tmrCount } := by
    rw [← h2, State.tickChannel_frame, e1]
  generalize h3 : s2.tickChannel .chC = s3
  have e3 : s3 = { s with tmrPend := s3.tmrPend, tmrCount := s3.tmrCount } := by
    rw [← h3, State.tickChannel_frame, e2]
  rw [State.tickChannel_frame, e3]

/-! One channel's part of a tick. -/

theorem State.tickChannel_tmrCount (s : State) (ch : Chan) :
    (s.tickChannel ch).tmrCount = if s.tmrCount = s.tmrCC.get ch ∧ s.tmrClr.get ch = true then 0 else s.tmrCount := by
  unfold State.tickChannel
  by_cases h : s.tmrCount = s.tmrCC.get ch <;> by_cases c : s.tmrClr.get ch = true <;> simp [h, c]

theorem State.tickChannel_tmrPend (s : State) (ch : Chan) :
    (s.tickChannel ch).tmrPend = if s.tmrCount = s.tmrCC.get ch then s.tmrPend.set ch true else s.tmrPend := by
  unfold State.tickChannel
  by_cases h : s.tmrCount = s.tmrCC.get ch <;> by_cases c : s.tmrClr.get ch = true <;> simp [h, c]

/-! H-DEADLINE. -/

/-- In the abstract model H-DEADLINE bars every firing while an event is pending. -/
theorem HDeadline.noPending {s : State} (h : HDeadline s) (mv : s.timerMoves) (run : s.serState = .running)
    (idle : s.handler = none) (abst : s.cfg.tickLevel = false) : s.noPending := by
  refine h.beforeNext mv run idle ?_
  cases hn : s.tmrNext <;> simp [State.nextFirings, abst, hn, PerChan.set]

/-! The moves. -/

/-- The next move is the agenda's first, or a free draw; taking it changes the agenda or the count of draws only. -/
theorem State.afterMove_cases (s : State) :
    (∃ m rest, s.agenda = m :: rest ∧ s.move = m ∧ s.afterMove = { s with agenda := rest })
      ∨ (s.agenda = [] ∧ s.move = Config.freeMove s.draws ∧ s.afterMove = { s with draws := s.draws + 1 }) := by
  unfold State.move State.afterMove
  split
  · next m rest h => exact .inl ⟨m, rest, h, rfl, rfl⟩
  · next h => exact .inr ⟨h, rfl, rfl⟩

/-! Memory under the operations. -/

theorem MemoryInv_congr {s t : State} (hi : t.image = s.image) (hc : t.cmd = s.cmd) (h : MemoryInv s) :
    MemoryInv t := by
  rw [MemoryInv, hi, hc]
  exact h

/-- A byte stored in IMAGE inside its range keeps the canonical form. -/
theorem State.writeImage_keeps_MemoryInv {s : State} {i : Nat} (v : Byte) (hi : i < imageSize) (h : MemoryInv s) :
    MemoryInv (s.writeImage i v) :=
  ⟨Memory.wf_write i v h.1, Memory.below_write v hi h.2.1, h.2.2.1, h.2.2.2⟩

/-- A byte stored in CMD inside its range keeps the canonical form. -/
theorem State.writeCmd_keeps_MemoryInv {s : State} {i : Nat} (v : Byte) (hi : i < cmdCap) (h : MemoryInv s) :
    MemoryInv (s.writeCmd i v) :=
  ⟨h.1, h.2.1, Memory.wf_write i v h.2.2.1, Memory.below_write v hi h.2.2.2⟩

/-- Placing a table word keeps the canonical form. -/
theorem placeBytes_wf {m : Memory} (a : Nat) (bs : List Byte) (h : Memory.wf m = true) :
    Memory.wf (placeBytes a bs m) = true := by
  induction bs generalizing a m with
  | nil => exact h
  | cons b rest ih => exact ih (a + 1) (Memory.wf_write a b h)

end Sys2Proof.Machine
end

