-- ==== Sys2Proof/Laws/Exec.lean ====
section
/-! SUPPORT. The inversion of each meaning: where it answers a next state, the state was one its rule enables, and the next
state is the rule's. Later proofs cite these and do not unfold a meaning. -/

namespace Sys2Proof.Machine

/-- A guarded operation answers a next state only where its guard holds. -/
theorem next_of_guarded {g : Prop} [Decidable g] {s u t : State}
    (h : (if g then Host.Outcome.next u else s.stop) = (.next t : Out)) : g ∧ t = u := by
  split at h
  · next hg => exact ⟨hg, by cases h; rfl⟩
  · cases h

theorem execLineAppend_next {b : Byte} {s t : State} (h : execLineAppend b s = .next t) :
    (s.lineReady ∧ s.rxq.head? = some b ∧ b ≠ newline ∧ s.cmdLen.toNat < cmdCap)
      ∧ t = { s.popRx.writeCmd s.cmdLen.toNat b with cmdLen := s.cmdLen + 1 } :=
  next_of_guarded h

theorem execLineEnd_next {s t : State} (h : execLineEnd s = .next t) :
    (s.lineReady ∧ s.rxq.head? = some newline ∧ s.cmdLen.toNat < cmdCap)
      ∧ t = s.storeNewline.command (classify (s.storeNewline.lineBytes (s.cmdLen.toNat + 1))) :=
  next_of_guarded h

theorem execCmdTransfer_next {s t : State} (h : execCmdTransfer s = .next t) : s.lineReady ∧ t = s.cmdTransfer :=
  next_of_guarded h

theorem execCmdBoot3wb_next {s t : State} (h : execCmdBoot3wb s = .next t) : s.lineReady ∧ t = s.cmdBoot3wb :=
  next_of_guarded h

theorem execCmdOther_next {line : List Byte} {s t : State} (h : execCmdOther line s = .next t) :
    s.lineReady ∧ t = s.cmdOther :=
  next_of_guarded h

theorem execDataByte_next {b : Byte} {s t : State} (h : execDataByte b s = .next t) :
    (s.rawReady ∧ s.rxq.head? = some b ∧ s.dataCnt.toNat < imageSize - 1)
      ∧ t = { s.popRx.writeImage s.dataCnt.toNat b with dataCnt := s.dataCnt + 1 } :=
  next_of_guarded h

theorem execDataLast_next {b : Byte} {s t : State} (h : execDataLast b s = .next t) :
    (s.rawReady ∧ s.rxq.head? = some b ∧ s.dataCnt.toNat = imageSize - 1)
      ∧ t = { s.popRx.writeImage (imageSize - 1) b with dataCnt := BitVec.ofNat 17 imageSize }.beginSend .dataAck :=
  next_of_guarded h

theorem execFgSend_next {s t : State} (h : execFgSend s = .next t) :
    ∃ m k b, s.fgTx = some ⟨m, k⟩ ∧ s.free ∧ s.seq.isReception = true ∧ m.bytes[k]? = some b
      ∧ ((s.txRoom ∧ t = (s.txByte b).sentByte m k) ∨ (¬ s.txRoom ∧ t = s)) := by
  unfold execFgSend at h
  split at h
  · cases h
  · next m k hf =>
    split at h
    · next hg =>
      split at h
      · cases h
      · next b hb =>
        split at h
        · next hr => exact ⟨m, k, b, hf, hg.1, hg.2, hb, .inl ⟨hr, by cases h; rfl⟩⟩
        · next hr => exact ⟨m, k, b, hf, hg.1, hg.2, hb, .inr ⟨hr, by cases h; rfl⟩⟩
    · cases h

theorem execFaultCmdOverrun_next {b : Byte} {s t : State} (h : execFaultCmdOverrun b s = .next t) :
    (s.lineReady ∧ s.rxq.head? = some b ∧ s.cmdLen.toNat = cmdCap) ∧ t = s.popRx.raiseFault .cmdOverrun :=
  next_of_guarded h

theorem execDecideBoot_next {s t : State} (h : execDecideBoot s = .next t) :
    (s.free ∧ s.seq = .deciding) ∧ t = { s with seq := s.decidedPhase } :=
  next_of_guarded h

theorem execArm_next {s t : State} (h : execArm s = .next t) :
    s.seq = .doArm ∧ s.serState = .idle ∧ s.free
      ∧ t = { s.armTimer with
                tmrNext := .chA, byteIndex := 0, bitIndex := 0, serState := .armed, seq := .doStart } := by
  unfold execArm at h
  split at h
  · next hg =>
    obtain ⟨hf, ht⟩ := next_of_guarded h
    exact ⟨hg.1, hg.2, hf, ht⟩
  · cases h

theorem execStart_next {s t : State} (h : execStart s = .next t) :
    s.seq = .doStart ∧ s.serState = .armed ∧ s.free
      ∧ t = { s.timerEnable with serState := .running, seq := .waitRun } := by
  unfold execStart at h
  split at h
  · next hg =>
    obtain ⟨hf, ht⟩ := next_of_guarded h
    exact ⟨hg.1, hg.2, hf, ht⟩
  · cases h

theorem execWaitRun_next {s t : State} (h : execWaitRun s = .next t) : (s.free ∧ s.seq = .waitRun) ∧ t = s :=
  next_of_guarded h

theorem execWaitIdle_next {s t : State} (h : execWaitIdle s = .next t) : (s.free ∧ s.seq = .waitIdle) ∧ t = s :=
  next_of_guarded h

theorem execEvtA_next {s t : State} (h : execEvtA s = .next t) :
    (s.free ∧ s.serState = .running) ∧ t = s.evtABody :=
  next_of_guarded h

theorem execEvtB_next {s t : State} (h : execEvtB s = .next t) :
    (s.free ∧ s.serState = .running) ∧ t = s.evtBBody :=
  next_of_guarded h

theorem execEvtC_next {s t : State} (h : execEvtC s = .next t) :
    (s.free ∧ s.serState = .running) ∧ t = s.evtCBody :=
  next_of_guarded h

theorem execEvtD_next {s t : State} (h : execEvtD s = .next t) :
    (s.free ∧ s.serState = .running) ∧ t = s.evtDBody :=
  next_of_guarded h

theorem execFaultImageOob_next {s t : State} (h : execFaultImageOob s = .next t) :
    (s.free ∧ s.serState = .running ∧ imageSize ≤ s.byteIndex.toNat) ∧ t = s.raiseFault .imageOob :=
  next_of_guarded h

theorem execEvtIgnored_next {ch : Chan} {s t : State} (h : execEvtIgnored ch s = .next t) :
    (s.free ∧ s.serState ≠ .running) ∧ t = s :=
  next_of_guarded h

theorem execDispatch_next {ch : Chan} {s t : State} (h : execDispatch ch s = .next t) :
    (s.free ∧ s.tmrPend.get ch = true) ∧ t = (s.setPend ch false).runHandler ch :=
  next_of_guarded h

theorem execDSend_next {s t : State} (h : execDSend s = .next t) :
    ∃ k, s.handler = some k ∧ s.fault = .noFault
      ∧ ((∃ b, bootloadSuccess[k.val]? = some b ∧ s.txRoom
            ∧ t = { s.txByte b with handler := some (k + 1) })
        ∨ (∃ b, bootloadSuccess[k.val]? = some b ∧ ¬ s.txRoom ∧ t = s)
        ∨ (k = 17 ∧ t = { s.timerDisable with serState := .done }.handlerReturn)) := by
  unfold execDSend at h
  split at h
  · cases h
  · next k hk =>
    split at h
    · next hf =>
      split at h
      · next b hb =>
        split at h
        · next hr => exact ⟨k, hk, hf, .inl ⟨b, hb, hr, by cases h; rfl⟩⟩
        · next hr => exact ⟨k, hk, hf, .inr (.inl ⟨b, hb, hr, by cases h; rfl⟩)⟩
      · next hn =>
        refine ⟨k, hk, hf, .inr (.inr ⟨?_, by cases h; rfl⟩)⟩
        have := List.getElem?_eq_none_iff.1 hn
        have hl : bootloadSuccess.length = 17 := rfl
        have hk2 := k.isLt
        exact Fin.ext (show k.val = 17 by omega)
    · cases h

theorem execTimerFire_next {s t : State} (h : execTimerFire s = .next t) :
    (s.tmrEn = true ∧ s.fault = .noFault) ∧ t = s.fire :=
  next_of_guarded h

theorem execFaultFraming_next {s t : State} (h : execFaultFraming s = .next t) :
    s.fault = .noFault ∧ t = s.raiseFault .xportFraming :=
  next_of_guarded h

theorem execFaultFifo_next {s t : State} (h : execFaultFifo s = .next t) :
    s.fault = .noFault ∧ t = s.raiseFault .xportFifo :=
  next_of_guarded h

theorem execFaultRxOverrun_next {b : Byte} {s t : State} (h : execFaultRxOverrun b s = .next t) :
    (s.fault = .noFault ∧ ¬ s.rxRoom) ∧ t = (s.recordPush b).raiseFault .xportOverrun :=
  next_of_guarded h

end Sys2Proof.Machine
end

