-- ==== Sys2Proof/Laws/Fields.lean ====
section
/-! SUPPORT. The fields that the operations with several branches leave alone: the handler's bodies, the command of a
line, and the tick. -/

namespace Sys2Proof.Machine

/-! `evtABody` -/

@[simp] theorem State.evtABody_cfg (s : State) : s.evtABody.cfg = s.cfg := by
  obtain ⟨-, h⟩ | ⟨-, h⟩ := s.evtABody_cases <;> rw [h] <;> simp
@[simp] theorem State.evtABody_bootFlag (s : State) : s.evtABody.bootFlag = s.bootFlag := by
  obtain ⟨-, h⟩ | ⟨-, h⟩ := s.evtABody_cases <;> rw [h] <;> simp
@[simp] theorem State.evtABody_cmdLen (s : State) : s.evtABody.cmdLen = s.cmdLen := by
  obtain ⟨-, h⟩ | ⟨-, h⟩ := s.evtABody_cases <;> rw [h] <;> simp
@[simp] theorem State.evtABody_dataCnt (s : State) : s.evtABody.dataCnt = s.dataCnt := by
  obtain ⟨-, h⟩ | ⟨-, h⟩ := s.evtABody_cases <;> rw [h] <;> simp
@[simp] theorem State.evtABody_serState (s : State) : s.evtABody.serState = s.serState := by
  obtain ⟨-, h⟩ | ⟨-, h⟩ := s.evtABody_cases <;> rw [h] <;> simp
@[simp] theorem State.evtABody_tmrCC (s : State) : s.evtABody.tmrCC = s.tmrCC := by
  obtain ⟨-, h⟩ | ⟨-, h⟩ := s.evtABody_cases <;> rw [h] <;> simp
@[simp] theorem State.evtABody_tmrClr (s : State) : s.evtABody.tmrClr = s.tmrClr := by
  obtain ⟨-, h⟩ | ⟨-, h⟩ := s.evtABody_cases <;> rw [h] <;> simp
@[simp] theorem State.evtABody_tmrPeriod (s : State) : s.evtABody.tmrPeriod = s.tmrPeriod := by
  obtain ⟨-, h⟩ | ⟨-, h⟩ := s.evtABody_cases <;> rw [h] <;> simp
@[simp] theorem State.evtABody_tmrNext (s : State) : s.evtABody.tmrNext = s.tmrNext := by
  obtain ⟨-, h⟩ | ⟨-, h⟩ := s.evtABody_cases <;> rw [h] <;> simp
@[simp] theorem State.evtABody_tmrPend (s : State) : s.evtABody.tmrPend = s.tmrPend := by
  obtain ⟨-, h⟩ | ⟨-, h⟩ := s.evtABody_cases <;> rw [h] <;> simp
@[simp] theorem State.evtABody_tmrCount (s : State) : s.evtABody.tmrCount = s.tmrCount := by
  obtain ⟨-, h⟩ | ⟨-, h⟩ := s.evtABody_cases <;> rw [h] <;> simp
@[simp] theorem State.evtABody_rxq (s : State) : s.evtABody.rxq = s.rxq := by
  obtain ⟨-, h⟩ | ⟨-, h⟩ := s.evtABody_cases <;> rw [h] <;> simp
@[simp] theorem State.evtABody_txq (s : State) : s.evtABody.txq = s.txq := by
  obtain ⟨-, h⟩ | ⟨-, h⟩ := s.evtABody_cases <;> rw [h] <;> simp
@[simp] theorem State.evtABody_image (s : State) : s.evtABody.image = s.image := by
  obtain ⟨-, h⟩ | ⟨-, h⟩ := s.evtABody_cases <;> rw [h] <;> simp
@[simp] theorem State.evtABody_cmd (s : State) : s.evtABody.cmd = s.cmd := by
  obtain ⟨-, h⟩ | ⟨-, h⟩ := s.evtABody_cases <;> rw [h] <;> simp
@[simp] theorem State.evtABody_agenda (s : State) : s.evtABody.agenda = s.agenda := by
  obtain ⟨-, h⟩ | ⟨-, h⟩ := s.evtABody_cases <;> rw [h] <;> simp
@[simp] theorem State.evtABody_draws (s : State) : s.evtABody.draws = s.draws := by
  obtain ⟨-, h⟩ | ⟨-, h⟩ := s.evtABody_cases <;> rw [h] <;> simp
@[simp] theorem State.evtABody_resets (s : State) : s.evtABody.resets = s.resets := by
  obtain ⟨-, h⟩ | ⟨-, h⟩ := s.evtABody_cases <;> rw [h] <;> simp

/-! `evtBBody` -/

@[simp] theorem State.evtBBody_cfg (s : State) : s.evtBBody.cfg = s.cfg := by
  rw [State.evtBBody_eq]; rfl
@[simp] theorem State.evtBBody_seq (s : State) : s.evtBBody.seq = s.seq := by
  rw [State.evtBBody_eq]; rfl
@[simp] theorem State.evtBBody_fgTx (s : State) : s.evtBBody.fgTx = s.fgTx := by
  rw [State.evtBBody_eq]; rfl
@[simp] theorem State.evtBBody_bootFlag (s : State) : s.evtBBody.bootFlag = s.bootFlag := by
  rw [State.evtBBody_eq]; rfl
@[simp] theorem State.evtBBody_cmdLen (s : State) : s.evtBBody.cmdLen = s.cmdLen := by
  rw [State.evtBBody_eq]; rfl
@[simp] theorem State.evtBBody_dataCnt (s : State) : s.evtBBody.dataCnt = s.dataCnt := by
  rw [State.evtBBody_eq]; rfl
@[simp] theorem State.evtBBody_serState (s : State) : s.evtBBody.serState = s.serState := by
  rw [State.evtBBody_eq]; rfl
@[simp] theorem State.evtBBody_byteIndex (s : State) : s.evtBBody.byteIndex = s.byteIndex := by
  rw [State.evtBBody_eq]; rfl
@[simp] theorem State.evtBBody_bitIndex (s : State) : s.evtBBody.bitIndex = s.bitIndex := by
  rw [State.evtBBody_eq]; rfl
@[simp] theorem State.evtBBody_tmrEn (s : State) : s.evtBBody.tmrEn = s.tmrEn := by
  rw [State.evtBBody_eq]; rfl
@[simp] theorem State.evtBBody_tmrCC (s : State) : s.evtBBody.tmrCC = s.tmrCC := by
  rw [State.evtBBody_eq]; rfl
@[simp] theorem State.evtBBody_tmrClr (s : State) : s.evtBBody.tmrClr = s.tmrClr := by
  rw [State.evtBBody_eq]; rfl
@[simp] theorem State.evtBBody_tmrPeriod (s : State) : s.evtBBody.tmrPeriod = s.tmrPeriod := by
  rw [State.evtBBody_eq]; rfl
@[simp] theorem State.evtBBody_tmrNext (s : State) : s.evtBBody.tmrNext = s.tmrNext := by
  rw [State.evtBBody_eq]; rfl
@[simp] theorem State.evtBBody_tmrPend (s : State) : s.evtBBody.tmrPend = s.tmrPend := by
  rw [State.evtBBody_eq]; rfl
@[simp] theorem State.evtBBody_tmrCount (s : State) : s.evtBBody.tmrCount = s.tmrCount := by
  rw [State.evtBBody_eq]; rfl
@[simp] theorem State.evtBBody_handler (s : State) : s.evtBBody.handler = s.handler := by
  rw [State.evtBBody_eq]; rfl
@[simp] theorem State.evtBBody_fault (s : State) : s.evtBBody.fault = s.fault := by
  rw [State.evtBBody_eq]; rfl
@[simp] theorem State.evtBBody_rxq (s : State) : s.evtBBody.rxq = s.rxq := by
  rw [State.evtBBody_eq]; rfl
@[simp] theorem State.evtBBody_txq (s : State) : s.evtBBody.txq = s.txq := by
  rw [State.evtBBody_eq]; rfl
@[simp] theorem State.evtBBody_image (s : State) : s.evtBBody.image = s.image := by
  rw [State.evtBBody_eq]; rfl
@[simp] theorem State.evtBBody_cmd (s : State) : s.evtBBody.cmd = s.cmd := by
  rw [State.evtBBody_eq]; rfl
@[simp] theorem State.evtBBody_agenda (s : State) : s.evtBBody.agenda = s.agenda := by
  rw [State.evtBBody_eq]; rfl
@[simp] theorem State.evtBBody_draws (s : State) : s.evtBBody.draws = s.draws := by
  rw [State.evtBBody_eq]; rfl
@[simp] theorem State.evtBBody_resets (s : State) : s.evtBBody.resets = s.resets := by
  rw [State.evtBBody_eq]; rfl

/-! `evtCBody` -/

@[simp] theorem State.evtCBody_cfg (s : State) : s.evtCBody.cfg = s.cfg := by
  rfl
@[simp] theorem State.evtCBody_seq (s : State) : s.evtCBody.seq = s.seq := by
  rfl
@[simp] theorem State.evtCBody_fgTx (s : State) : s.evtCBody.fgTx = s.fgTx := by
  rfl
@[simp] theorem State.evtCBody_bootFlag (s : State) : s.evtCBody.bootFlag = s.bootFlag := by
  rfl
@[simp] theorem State.evtCBody_cmdLen (s : State) : s.evtCBody.cmdLen = s.cmdLen := by
  rfl
@[simp] theorem State.evtCBody_dataCnt (s : State) : s.evtCBody.dataCnt = s.dataCnt := by
  rfl
@[simp] theorem State.evtCBody_serState (s : State) : s.evtCBody.serState = s.serState := by
  rfl
@[simp] theorem State.evtCBody_byteIndex (s : State) : s.evtCBody.byteIndex = s.byteIndex := by
  rfl
@[simp] theorem State.evtCBody_bitIndex (s : State) : s.evtCBody.bitIndex = s.bitIndex := by
  rfl
@[simp] theorem State.evtCBody_tmrEn (s : State) : s.evtCBody.tmrEn = s.tmrEn := by
  rfl
@[simp] theorem State.evtCBody_tmrCC (s : State) : s.evtCBody.tmrCC = s.tmrCC := by
  rfl
@[simp] theorem State.evtCBody_tmrClr (s : State) : s.evtCBody.tmrClr = s.tmrClr := by
  rfl
@[simp] theorem State.evtCBody_tmrPeriod (s : State) : s.evtCBody.tmrPeriod = s.tmrPeriod := by
  rfl
@[simp] theorem State.evtCBody_tmrNext (s : State) : s.evtCBody.tmrNext = s.tmrNext := by
  rfl
@[simp] theorem State.evtCBody_tmrPend (s : State) : s.evtCBody.tmrPend = s.tmrPend := by
  rfl
@[simp] theorem State.evtCBody_tmrCount (s : State) : s.evtCBody.tmrCount = s.tmrCount := by
  rfl
@[simp] theorem State.evtCBody_handler (s : State) : s.evtCBody.handler = s.handler := by
  rfl
@[simp] theorem State.evtCBody_fault (s : State) : s.evtCBody.fault = s.fault := by
  rfl
@[simp] theorem State.evtCBody_rxq (s : State) : s.evtCBody.rxq = s.rxq := by
  rfl
@[simp] theorem State.evtCBody_txq (s : State) : s.evtCBody.txq = s.txq := by
  rfl
@[simp] theorem State.evtCBody_image (s : State) : s.evtCBody.image = s.image := by
  rfl
@[simp] theorem State.evtCBody_cmd (s : State) : s.evtCBody.cmd = s.cmd := by
  rfl
@[simp] theorem State.evtCBody_agenda (s : State) : s.evtCBody.agenda = s.agenda := by
  rfl
@[simp] theorem State.evtCBody_draws (s : State) : s.evtCBody.draws = s.draws := by
  rfl
@[simp] theorem State.evtCBody_resets (s : State) : s.evtCBody.resets = s.resets := by
  rfl

/-! `evtDBody` -/

@[simp] theorem State.evtDBody_cfg (s : State) : s.evtDBody.cfg = s.cfg := by
  obtain ⟨-, h⟩ | ⟨-, h⟩ := s.evtDBody_cases <;> rw [h] <;> simp
@[simp] theorem State.evtDBody_seq (s : State) : s.evtDBody.seq = s.seq := by
  obtain ⟨-, h⟩ | ⟨-, h⟩ := s.evtDBody_cases <;> rw [h] <;> simp
@[simp] theorem State.evtDBody_fgTx (s : State) : s.evtDBody.fgTx = s.fgTx := by
  obtain ⟨-, h⟩ | ⟨-, h⟩ := s.evtDBody_cases <;> rw [h] <;> simp
@[simp] theorem State.evtDBody_bootFlag (s : State) : s.evtDBody.bootFlag = s.bootFlag := by
  obtain ⟨-, h⟩ | ⟨-, h⟩ := s.evtDBody_cases <;> rw [h] <;> simp
@[simp] theorem State.evtDBody_cmdLen (s : State) : s.evtDBody.cmdLen = s.cmdLen := by
  obtain ⟨-, h⟩ | ⟨-, h⟩ := s.evtDBody_cases <;> rw [h] <;> simp
@[simp] theorem State.evtDBody_dataCnt (s : State) : s.evtDBody.dataCnt = s.dataCnt := by
  obtain ⟨-, h⟩ | ⟨-, h⟩ := s.evtDBody_cases <;> rw [h] <;> simp
@[simp] theorem State.evtDBody_serState (s : State) : s.evtDBody.serState = s.serState := by
  obtain ⟨-, h⟩ | ⟨-, h⟩ := s.evtDBody_cases <;> rw [h] <;> simp
@[simp] theorem State.evtDBody_byteIndex (s : State) : s.evtDBody.byteIndex = s.byteIndex := by
  obtain ⟨-, h⟩ | ⟨-, h⟩ := s.evtDBody_cases <;> rw [h] <;> simp
@[simp] theorem State.evtDBody_bitIndex (s : State) : s.evtDBody.bitIndex = s.bitIndex := by
  obtain ⟨-, h⟩ | ⟨-, h⟩ := s.evtDBody_cases <;> rw [h] <;> simp
@[simp] theorem State.evtDBody_tmrEn (s : State) : s.evtDBody.tmrEn = s.tmrEn := by
  obtain ⟨-, h⟩ | ⟨-, h⟩ := s.evtDBody_cases <;> rw [h] <;> simp
@[simp] theorem State.evtDBody_tmrCC (s : State) : s.evtDBody.tmrCC = s.tmrCC := by
  obtain ⟨-, h⟩ | ⟨-, h⟩ := s.evtDBody_cases <;> rw [h] <;> simp
@[simp] theorem State.evtDBody_tmrClr (s : State) : s.evtDBody.tmrClr = s.tmrClr := by
  obtain ⟨-, h⟩ | ⟨-, h⟩ := s.evtDBody_cases <;> rw [h] <;> simp
@[simp] theorem State.evtDBody_tmrPeriod (s : State) : s.evtDBody.tmrPeriod = s.tmrPeriod := by
  obtain ⟨-, h⟩ | ⟨-, h⟩ := s.evtDBody_cases <;> rw [h] <;> simp
@[simp] theorem State.evtDBody_tmrNext (s : State) : s.evtDBody.tmrNext = s.tmrNext := by
  obtain ⟨-, h⟩ | ⟨-, h⟩ := s.evtDBody_cases <;> rw [h] <;> simp
@[simp] theorem State.evtDBody_tmrPend (s : State) : s.evtDBody.tmrPend = s.tmrPend := by
  obtain ⟨-, h⟩ | ⟨-, h⟩ := s.evtDBody_cases <;> rw [h] <;> simp
@[simp] theorem State.evtDBody_tmrCount (s : State) : s.evtDBody.tmrCount = s.tmrCount := by
  obtain ⟨-, h⟩ | ⟨-, h⟩ := s.evtDBody_cases <;> rw [h] <;> simp
@[simp] theorem State.evtDBody_fault (s : State) : s.evtDBody.fault = s.fault := by
  obtain ⟨-, h⟩ | ⟨-, h⟩ := s.evtDBody_cases <;> rw [h] <;> simp
@[simp] theorem State.evtDBody_rxq (s : State) : s.evtDBody.rxq = s.rxq := by
  obtain ⟨-, h⟩ | ⟨-, h⟩ := s.evtDBody_cases <;> rw [h] <;> simp
@[simp] theorem State.evtDBody_txq (s : State) : s.evtDBody.txq = s.txq := by
  obtain ⟨-, h⟩ | ⟨-, h⟩ := s.evtDBody_cases <;> rw [h] <;> simp
@[simp] theorem State.evtDBody_image (s : State) : s.evtDBody.image = s.image := by
  obtain ⟨-, h⟩ | ⟨-, h⟩ := s.evtDBody_cases <;> rw [h] <;> simp
@[simp] theorem State.evtDBody_cmd (s : State) : s.evtDBody.cmd = s.cmd := by
  obtain ⟨-, h⟩ | ⟨-, h⟩ := s.evtDBody_cases <;> rw [h] <;> simp
@[simp] theorem State.evtDBody_agenda (s : State) : s.evtDBody.agenda = s.agenda := by
  obtain ⟨-, h⟩ | ⟨-, h⟩ := s.evtDBody_cases <;> rw [h] <;> simp
@[simp] theorem State.evtDBody_draws (s : State) : s.evtDBody.draws = s.draws := by
  obtain ⟨-, h⟩ | ⟨-, h⟩ := s.evtDBody_cases <;> rw [h] <;> simp
@[simp] theorem State.evtDBody_resets (s : State) : s.evtDBody.resets = s.resets := by
  obtain ⟨-, h⟩ | ⟨-, h⟩ := s.evtDBody_cases <;> rw [h] <;> simp

/-! `runHandler` -/

@[simp] theorem State.runHandler_cfg (s : State) (ch : Chan) : (s.runHandler ch).cfg = s.cfg := by
  obtain ⟨-, h⟩ | ⟨-, -, h⟩ | ⟨-, -, h⟩ | ⟨-, -, h⟩ | ⟨-, -, h⟩ := s.runHandler_cases ch <;> simp [h]
@[simp] theorem State.runHandler_bootFlag (s : State) (ch : Chan) : (s.runHandler ch).bootFlag = s.bootFlag := by
  obtain ⟨-, h⟩ | ⟨-, -, h⟩ | ⟨-, -, h⟩ | ⟨-, -, h⟩ | ⟨-, -, h⟩ := s.runHandler_cases ch <;> simp [h]
@[simp] theorem State.runHandler_cmdLen (s : State) (ch : Chan) : (s.runHandler ch).cmdLen = s.cmdLen := by
  obtain ⟨-, h⟩ | ⟨-, -, h⟩ | ⟨-, -, h⟩ | ⟨-, -, h⟩ | ⟨-, -, h⟩ := s.runHandler_cases ch <;> simp [h]
@[simp] theorem State.runHandler_dataCnt (s : State) (ch : Chan) : (s.runHandler ch).dataCnt = s.dataCnt := by
  obtain ⟨-, h⟩ | ⟨-, -, h⟩ | ⟨-, -, h⟩ | ⟨-, -, h⟩ | ⟨-, -, h⟩ := s.runHandler_cases ch <;> simp [h]
@[simp] theorem State.runHandler_serState (s : State) (ch : Chan) : (s.runHandler ch).serState = s.serState := by
  obtain ⟨-, h⟩ | ⟨-, -, h⟩ | ⟨-, -, h⟩ | ⟨-, -, h⟩ | ⟨-, -, h⟩ := s.runHandler_cases ch <;> simp [h]
@[simp] theorem State.runHandler_tmrCC (s : State) (ch : Chan) : (s.runHandler ch).tmrCC = s.tmrCC := by
  obtain ⟨-, h⟩ | ⟨-, -, h⟩ | ⟨-, -, h⟩ | ⟨-, -, h⟩ | ⟨-, -, h⟩ := s.runHandler_cases ch <;> simp [h]
@[simp] theorem State.runHandler_tmrClr (s : State) (ch : Chan) : (s.runHandler ch).tmrClr = s.tmrClr := by
  obtain ⟨-, h⟩ | ⟨-, -, h⟩ | ⟨-, -, h⟩ | ⟨-, -, h⟩ | ⟨-, -, h⟩ := s.runHandler_cases ch <;> simp [h]
@[simp] theorem State.runHandler_tmrPeriod (s : State) (ch : Chan) : (s.runHandler ch).tmrPeriod = s.tmrPeriod := by
  obtain ⟨-, h⟩ | ⟨-, -, h⟩ | ⟨-, -, h⟩ | ⟨-, -, h⟩ | ⟨-, -, h⟩ := s.runHandler_cases ch <;> simp [h]
@[simp] theorem State.runHandler_tmrNext (s : State) (ch : Chan) : (s.runHandler ch).tmrNext = s.tmrNext := by
  obtain ⟨-, h⟩ | ⟨-, -, h⟩ | ⟨-, -, h⟩ | ⟨-, -, h⟩ | ⟨-, -, h⟩ := s.runHandler_cases ch <;> simp [h]
@[simp] theorem State.runHandler_tmrPend (s : State) (ch : Chan) : (s.runHandler ch).tmrPend = s.tmrPend := by
  obtain ⟨-, h⟩ | ⟨-, -, h⟩ | ⟨-, -, h⟩ | ⟨-, -, h⟩ | ⟨-, -, h⟩ := s.runHandler_cases ch <;> simp [h]
@[simp] theorem State.runHandler_tmrCount (s : State) (ch : Chan) : (s.runHandler ch).tmrCount = s.tmrCount := by
  obtain ⟨-, h⟩ | ⟨-, -, h⟩ | ⟨-, -, h⟩ | ⟨-, -, h⟩ | ⟨-, -, h⟩ := s.runHandler_cases ch <;> simp [h]
@[simp] theorem State.runHandler_rxq (s : State) (ch : Chan) : (s.runHandler ch).rxq = s.rxq := by
  obtain ⟨-, h⟩ | ⟨-, -, h⟩ | ⟨-, -, h⟩ | ⟨-, -, h⟩ | ⟨-, -, h⟩ := s.runHandler_cases ch <;> simp [h]
@[simp] theorem State.runHandler_txq (s : State) (ch : Chan) : (s.runHandler ch).txq = s.txq := by
  obtain ⟨-, h⟩ | ⟨-, -, h⟩ | ⟨-, -, h⟩ | ⟨-, -, h⟩ | ⟨-, -, h⟩ := s.runHandler_cases ch <;> simp [h]
@[simp] theorem State.runHandler_image (s : State) (ch : Chan) : (s.runHandler ch).image = s.image := by
  obtain ⟨-, h⟩ | ⟨-, -, h⟩ | ⟨-, -, h⟩ | ⟨-, -, h⟩ | ⟨-, -, h⟩ := s.runHandler_cases ch <;> simp [h]
@[simp] theorem State.runHandler_cmd (s : State) (ch : Chan) : (s.runHandler ch).cmd = s.cmd := by
  obtain ⟨-, h⟩ | ⟨-, -, h⟩ | ⟨-, -, h⟩ | ⟨-, -, h⟩ | ⟨-, -, h⟩ := s.runHandler_cases ch <;> simp [h]
@[simp] theorem State.runHandler_agenda (s : State) (ch : Chan) : (s.runHandler ch).agenda = s.agenda := by
  obtain ⟨-, h⟩ | ⟨-, -, h⟩ | ⟨-, -, h⟩ | ⟨-, -, h⟩ | ⟨-, -, h⟩ := s.runHandler_cases ch <;> simp [h]
@[simp] theorem State.runHandler_draws (s : State) (ch : Chan) : (s.runHandler ch).draws = s.draws := by
  obtain ⟨-, h⟩ | ⟨-, -, h⟩ | ⟨-, -, h⟩ | ⟨-, -, h⟩ | ⟨-, -, h⟩ := s.runHandler_cases ch <;> simp [h]
@[simp] theorem State.runHandler_resets (s : State) (ch : Chan) : (s.runHandler ch).resets = s.resets := by
  obtain ⟨-, h⟩ | ⟨-, -, h⟩ | ⟨-, -, h⟩ | ⟨-, -, h⟩ | ⟨-, -, h⟩ := s.runHandler_cases ch <;> simp [h]

/-! `command` -/

@[simp] theorem State.command_cfg (s : State) (k : LineKind) : (s.command k).cfg = s.cfg := by
  cases k <;> rfl
@[simp] theorem State.command_cmdLen (s : State) (k : LineKind) : (s.command k).cmdLen = s.cmdLen := by
  cases k <;> rfl
@[simp] theorem State.command_dataCnt (s : State) (k : LineKind) : (s.command k).dataCnt = s.dataCnt := by
  cases k <;> rfl
@[simp] theorem State.command_serState (s : State) (k : LineKind) : (s.command k).serState = s.serState := by
  cases k <;> rfl
@[simp] theorem State.command_byteIndex (s : State) (k : LineKind) : (s.command k).byteIndex = s.byteIndex := by
  cases k <;> rfl
@[simp] theorem State.command_bitIndex (s : State) (k : LineKind) : (s.command k).bitIndex = s.bitIndex := by
  cases k <;> rfl
@[simp] theorem State.command_tmrEn (s : State) (k : LineKind) : (s.command k).tmrEn = s.tmrEn := by
  cases k <;> rfl
@[simp] theorem State.command_tmrCC (s : State) (k : LineKind) : (s.command k).tmrCC = s.tmrCC := by
  cases k <;> rfl
@[simp] theorem State.command_tmrClr (s : State) (k : LineKind) : (s.command k).tmrClr = s.tmrClr := by
  cases k <;> rfl
@[simp] theorem State.command_tmrPeriod (s : State) (k : LineKind) : (s.command k).tmrPeriod = s.tmrPeriod := by
  cases k <;> rfl
@[simp] theorem State.command_tmrNext (s : State) (k : LineKind) : (s.command k).tmrNext = s.tmrNext := by
  cases k <;> rfl
@[simp] theorem State.command_tmrPend (s : State) (k : LineKind) : (s.command k).tmrPend = s.tmrPend := by
  cases k <;> rfl
@[simp] theorem State.command_tmrCount (s : State) (k : LineKind) : (s.command k).tmrCount = s.tmrCount := by
  cases k <;> rfl
@[simp] theorem State.command_handler (s : State) (k : LineKind) : (s.command k).handler = s.handler := by
  cases k <;> rfl
@[simp] theorem State.command_line (s : State) (k : LineKind) : (s.command k).line = s.line := by
  cases k <;> rfl
@[simp] theorem State.command_fault (s : State) (k : LineKind) : (s.command k).fault = s.fault := by
  cases k <;> rfl
@[simp] theorem State.command_rxq (s : State) (k : LineKind) : (s.command k).rxq = s.rxq := by
  cases k <;> rfl
@[simp] theorem State.command_txq (s : State) (k : LineKind) : (s.command k).txq = s.txq := by
  cases k <;> rfl
@[simp] theorem State.command_image (s : State) (k : LineKind) : (s.command k).image = s.image := by
  cases k <;> rfl
@[simp] theorem State.command_cmd (s : State) (k : LineKind) : (s.command k).cmd = s.cmd := by
  cases k <;> rfl
@[simp] theorem State.command_history (s : State) (k : LineKind) : (s.command k).history = s.history := by
  cases k <;> rfl
@[simp] theorem State.command_agenda (s : State) (k : LineKind) : (s.command k).agenda = s.agenda := by
  cases k <;> rfl
@[simp] theorem State.command_draws (s : State) (k : LineKind) : (s.command k).draws = s.draws := by
  cases k <;> rfl
@[simp] theorem State.command_resets (s : State) (k : LineKind) : (s.command k).resets = s.resets := by
  cases k <;> rfl

/-! `tick` -/

@[simp] theorem State.tick_cfg (s : State) : s.tick.cfg = s.cfg := by
  rw [State.tick_frame]
@[simp] theorem State.tick_seq (s : State) : s.tick.seq = s.seq := by
  rw [State.tick_frame]
@[simp] theorem State.tick_fgTx (s : State) : s.tick.fgTx = s.fgTx := by
  rw [State.tick_frame]
@[simp] theorem State.tick_bootFlag (s : State) : s.tick.bootFlag = s.bootFlag := by
  rw [State.tick_frame]
@[simp] theorem State.tick_cmdLen (s : State) : s.tick.cmdLen = s.cmdLen := by
  rw [State.tick_frame]
@[simp] theorem State.tick_dataCnt (s : State) : s.tick.dataCnt = s.dataCnt := by
  rw [State.tick_frame]
@[simp] theorem State.tick_serState (s : State) : s.tick.serState = s.serState := by
  rw [State.tick_frame]
@[simp] theorem State.tick_byteIndex (s : State) : s.tick.byteIndex = s.byteIndex := by
  rw [State.tick_frame]
@[simp] theorem State.tick_bitIndex (s : State) : s.tick.bitIndex = s.bitIndex := by
  rw [State.tick_frame]
@[simp] theorem State.tick_tmrEn (s : State) : s.tick.tmrEn = s.tmrEn := by
  rw [State.tick_frame]
@[simp] theorem State.tick_tmrCC (s : State) : s.tick.tmrCC = s.tmrCC := by
  rw [State.tick_frame]
@[simp] theorem State.tick_tmrClr (s : State) : s.tick.tmrClr = s.tmrClr := by
  rw [State.tick_frame]
@[simp] theorem State.tick_tmrPeriod (s : State) : s.tick.tmrPeriod = s.tmrPeriod := by
  rw [State.tick_frame]
@[simp] theorem State.tick_tmrNext (s : State) : s.tick.tmrNext = s.tmrNext := by
  rw [State.tick_frame]
@[simp] theorem State.tick_handler (s : State) : s.tick.handler = s.handler := by
  rw [State.tick_frame]
@[simp] theorem State.tick_line (s : State) : s.tick.line = s.line := by
  rw [State.tick_frame]
@[simp] theorem State.tick_fault (s : State) : s.tick.fault = s.fault := by
  rw [State.tick_frame]
@[simp] theorem State.tick_rxq (s : State) : s.tick.rxq = s.rxq := by
  rw [State.tick_frame]
@[simp] theorem State.tick_txq (s : State) : s.tick.txq = s.txq := by
  rw [State.tick_frame]
@[simp] theorem State.tick_image (s : State) : s.tick.image = s.image := by
  rw [State.tick_frame]
@[simp] theorem State.tick_cmd (s : State) : s.tick.cmd = s.cmd := by
  rw [State.tick_frame]
@[simp] theorem State.tick_history (s : State) : s.tick.history = s.history := by
  rw [State.tick_frame]
@[simp] theorem State.tick_agenda (s : State) : s.tick.agenda = s.agenda := by
  rw [State.tick_frame]
@[simp] theorem State.tick_draws (s : State) : s.tick.draws = s.draws := by
  rw [State.tick_frame]
@[simp] theorem State.tick_resets (s : State) : s.tick.resets = s.resets := by
  rw [State.tick_frame]

end Sys2Proof.Machine
end

