-- ==== Sys2Proof/Laws/Step.lean ====
section
/-! SUPPORT. What a step can do, said once: `StepCase` lists every way the next move changes the state, with the
condition under which it does, and `step_cases` shows that a step is one of them. -/

namespace Sys2Proof.Machine

/-- Every change that a move can make to the state `s` it finds once it is taken from the agenda. -/
inductive StepCase (s : State) : Move → State → Prop where
  /-- The agent has no enabled step, or it waits (R109, R110, R135, R136, R156). -/
  | nothing (m : Move) : StepCase s m s
  /-- LINE_APPEND (R101). -/
  | lineAppend (b : Byte) (rest : List Byte) (ready : s.lineReady) (head : s.rxq = b :: rest) (hb : b ≠ newline)
      (room : s.cmdLen.toNat < cmdCap) :
      StepCase s .fg { s.popRx.writeCmd s.cmdLen.toNat b with cmdLen := s.cmdLen + 1 }
  /-- LINE_END (R102), with the command of its line. -/
  | lineEnd (rest : List Byte) (ready : s.lineReady) (head : s.rxq = newline :: rest)
      (room : s.cmdLen.toNat < cmdCap) :
      StepCase s .fg (s.storeNewline.command (classify (s.storeNewline.lineBytes (s.cmdLen.toNat + 1))))
  /-- FAULT_CMD_OVERRUN (R111). -/
  | cmdOverrun (b : Byte) (rest : List Byte) (ready : s.lineReady) (head : s.rxq = b :: rest)
      (full : s.cmdLen.toNat = cmdCap) : StepCase s .fg (s.popRx.raiseFault .cmdOverrun)
  /-- DATA_BYTE (R107). -/
  | dataByte (b : Byte) (rest : List Byte) (ready : s.rawReady) (head : s.rxq = b :: rest)
      (room : s.dataCnt.toNat < imageSize - 1) :
      StepCase s .fg { s.popRx.writeImage s.dataCnt.toNat b with dataCnt := s.dataCnt + 1 }
  /-- DATA_LAST (R108). -/
  | dataLast (b : Byte) (rest : List Byte) (ready : s.rawReady) (head : s.rxq = b :: rest)
      (last : s.dataCnt.toNat = imageSize - 1) :
      StepCase s .fg ({ s.popRx.writeImage (imageSize - 1) b with
        dataCnt := BitVec.ofNat 17 imageSize }.beginSend .dataAck)
  /-- FG_SEND (R109) of byte `k` of message `m`. -/
  | fgSend (m : Msg) (k : Nat) (b : Byte) (tx : s.fgTx = some ⟨m, k⟩) (free : s.free)
      (phase : s.seq.isReception = true) (byte : m.bytes[k]? = some b) (room : s.txRoom) :
      StepCase s .fg ((s.txByte b).sentByte m k)
  /-- DECIDE (R132). -/
  | decideBoot (free : s.free) (phase : s.seq = .deciding) : StepCase s .fg { s with seq := s.decidedPhase }
  /-- ARM (R133). -/
  | arm (free : s.free) (phase : s.seq = .doArm) (ser : s.serState = .idle) :
      StepCase s .fg { s.armTimer with
        tmrNext := .chA, byteIndex := 0, bitIndex := 0, serState := .armed, seq := .doStart }
  /-- START (R134). -/
  | start (free : s.free) (phase : s.seq = .doStart) (ser : s.serState = .armed) :
      StepCase s .fg { s.timerEnable with serState := .running, seq := .waitRun }
  /-- TIMER_FIRE (R208). -/
  | fire (en : s.tmrEn = true) (ok : s.fault = .noFault) (abst : s.cfg.tickLevel = false) : StepCase s .timer s.fire
  /-- One tick (R214). -/
  | tick (en : s.tmrEn = true) (ok : s.fault = .noFault) (ticks : s.cfg.tickLevel = true) : StepCase s .timer s.tick
  /-- DISPATCH (R216). -/
  | dispatch (ch : Chan) (free : s.free) (pend : s.tmrPend.get ch = true) :
      StepCase s (.isr ch) ((s.setPend ch false).runHandler ch)
  /-- D_SEND(k), k < 17 (R156). -/
  | dSend (ch : Chan) (k : Fin 18) (b : Byte) (progress : s.handler = some k) (ok : s.fault = .noFault)
      (byte : bootloadSuccess[k.val]? = some b) (room : s.txRoom) :
      StepCase s (.isr ch) { s.txByte b with handler := some (k + 1) }
  /-- D_SEND(17) (R156). -/
  | dEnd (ch : Chan) (progress : s.handler = some 17) (ok : s.fault = .noFault) :
      StepCase s (.isr ch) { s.timerDisable with serState := .done }.handlerReturn
  /-- HOST_PUSH with room (R224). -/
  | push (b : Byte) (ok : s.fault = .noFault) (room : s.rxRoom) : StepCase s (.push b) (s.hostPush b)
  /-- FAULT_RX_OVERRUN (R201). -/
  | overrun (b : Byte) (ok : s.fault = .noFault) (full : ¬ s.rxRoom) :
      StepCase s (.push b) ((s.recordPush b).raiseFault .xportOverrun)
  /-- HOST_PULL (R224). -/
  | pull (b : Byte) (rest : List Byte) (head : s.txq = b :: rest) : StepCase s .pull (s.hostPull b)
  /-- FAULT_FRAMING (R201). -/
  | framing (ok : s.fault = .noFault) : StepCase s .framing (s.raiseFault .xportFraming)
  /-- FAULT_FIFO (R201). -/
  | fifo (ok : s.fault = .noFault) : StepCase s .fifo (s.raiseFault .xportFifo)
  /-- The platform's reset (R204, R250). -/
  | reset (faulted : s.fault ≠ .noFault) (policy : s.cfg.platform.faultPolicy = .reset) :
      StepCase s .reset s.platformReset

theorem isLine_isReception {q : Seq} (h : q.isLine = true) : q.isReception = true := by
  cases q <;> first | rfl | cases h

/-- A reply in progress: the foreground sends, or waits for room. -/
theorem fgSend_cases {s t : State} (h : execFgSend s = .next t) : StepCase s .fg t := by
  obtain ⟨m, k, b, hm, hf, hq, hb, ⟨hr, rfl⟩ | ⟨-, rfl⟩⟩ := execFgSend_next h
  · exact .fgSend m k b hm hf hq hb hr
  · exact .nothing _

/-- The foreground in LineDelimited mode. -/
theorem fetchLine_cases {s t : State} (hf : s.free) (hq : s.seq.isLine = true)
    (h : runFetched s
      (match s.fgTx, s.rxq with
        | some t, _ => if t.k < t.msg.bytes.length then .unit (.control .fgSend) [] else .nothing
        | none, [] => .nothing
        | none, b :: _ =>
          if s.cmdLen.toNat ≤ cmdCap then .unit (.lineByte (decide (s.cmdLen.toNat < cmdCap))) [b]
          else .nothing) = .next t) : StepCase s .fg t := by
  split at h
  · split at h
    · exact fgSend_cases h
    · cases h; exact .nothing _
  · cases h; exact .nothing _
  · next b rest htx hrx =>
    split at h
    · have ready : s.lineReady := ⟨hf, hq, htx⟩
      by_cases room : s.cmdLen.toNat < cmdCap
      · by_cases hb : b = newline
        · subst hb
          simp only [runFetched, decode, room, decide_true, ite_true, runDecoded] at h
          obtain ⟨-, rfl⟩ := execLineEnd_next h
          exact .lineEnd rest ready hrx room
        · simp only [runFetched, decode, room, decide_true, ite_true, hb, ite_false, runDecoded] at h
          obtain ⟨-, rfl⟩ := execLineAppend_next h
          exact .lineAppend b rest ready hrx hb room
      · simp only [runFetched, decode, room, decide_false, Bool.false_eq_true, ite_false, runDecoded] at h
        obtain ⟨⟨-, -, hfull⟩, rfl⟩ := execFaultCmdOverrun_next h
        exact .cmdOverrun b rest ready hrx hfull
    · cases h; exact .nothing _

/-- The foreground in FixedLength mode. -/
theorem fetchRaw_cases {s t : State} (hf : s.free) (hq : s.seq = .rxData)
    (h : runFetched s
      (match s.fgTx, s.rxq with
        | some t, _ => if t.k < t.msg.bytes.length then .unit (.control .fgSend) [] else .nothing
        | none, [] => .nothing
        | none, b :: _ =>
          if s.dataCnt.toNat < imageSize then .unit (.rawByte (decide (s.dataCnt.toNat = imageSize - 1))) [b]
          else .nothing) = .next t) : StepCase s .fg t := by
  split at h
  · split at h
    · exact fgSend_cases h
    · cases h; exact .nothing _
  · cases h; exact .nothing _
  · next b rest htx hrx =>
    split at h
    · have ready : s.rawReady := ⟨hf, hq, htx⟩
      by_cases last : s.dataCnt.toNat = imageSize - 1
      · simp only [runFetched, decode, last, decide_true, ite_true, runDecoded] at h
        obtain ⟨-, rfl⟩ := execDataLast_next h
        exact .dataLast b rest ready hrx last
      · simp only [runFetched, decode, last, decide_false, Bool.false_eq_true, ite_false, runDecoded] at h
        obtain ⟨⟨-, -, room⟩, rfl⟩ := execDataByte_next h
        exact .dataByte b rest ready hrx room
    · cases h; exact .nothing _

theorem fetchForeground_cases {s t : State} (h : runFetched s (fetchForeground s) = .next t) : StepCase s .fg t := by
  unfold fetchForeground at h
  split at h
  · next hf =>
    split at h
    · next hq => exact fetchLine_cases hf (by rw [hq]; rfl) h
    · next hq => exact fetchLine_cases hf (by rw [hq]; rfl) h
    · next hq => exact fetchRaw_cases hf hq h
    · obtain ⟨⟨hf, hq⟩, rfl⟩ := execDecideBoot_next h
      exact .decideBoot hf hq
    · obtain ⟨hq, hs, hf, rfl⟩ := execArm_next h
      exact .arm hf hq hs
    · obtain ⟨hq, hs, hf, rfl⟩ := execStart_next h
      exact .start hf hq hs
    · obtain ⟨-, rfl⟩ := execWaitRun_next h
      exact .nothing _
    · obtain ⟨-, rfl⟩ := execWaitIdle_next h
      exact .nothing _
    · cases h; exact .nothing _
  · cases h; exact .nothing _

theorem fetchTimer_cases {s t : State} (h : runFetched s (fetchTimer s) = .next t) : StepCase s .timer t := by
  unfold fetchTimer at h
  split at h
  · next hg =>
    split at h
    · next ht => cases h; exact .tick hg.1 hg.2 ht
    · next ht =>
      obtain ⟨-, rfl⟩ := execTimerFire_next h
      exact .fire hg.1 hg.2 (by simpa using ht)
  · cases h; exact .nothing _

theorem fetchHandler_cases {ch : Chan} {s t : State} (h : runFetched s (fetchHandler ch s) = .next t) :
    StepCase s (.isr ch) t := by
  unfold fetchHandler at h
  split at h
  · split at h
    · obtain ⟨k, hk, ok, ⟨b, hb, hr, rfl⟩ | ⟨b, hb, hr, rfl⟩ | ⟨rfl, rfl⟩⟩ := execDSend_next h
      · exact .dSend ch k b hk ok hb hr
      · exact .nothing _
      · exact .dEnd ch hk ok
    · split at h
      · obtain ⟨⟨hf, hp⟩, rfl⟩ := execDispatch_next h
        exact .dispatch ch hf hp
      · cases h; exact .nothing _
  · cases h; exact .nothing _

theorem fetchPush_cases {b : Byte} {s t : State} (h : runFetched s (fetchPush b s) = .next t) :
    StepCase s (.push b) t := by
  unfold fetchPush at h
  split at h
  · next ok =>
    split at h
    · next hr => cases h; exact .push b ok hr
    · obtain ⟨⟨-, hr⟩, rfl⟩ := execFaultRxOverrun_next h
      exact .overrun b ok hr
  · cases h; exact .nothing _

theorem fetchPull_cases {s t : State} (h : runFetched s (fetchPull s) = .next t) : StepCase s .pull t := by
  unfold fetchPull at h
  split at h
  · cases h; exact .nothing _
  · next b rest hq => cases h; exact .pull b rest hq

/-- Whatever the move, what it fetches is one of the cases. -/
theorem fetch_cases {m : Move} {s t : State} (h : runFetched s (fetch m s) = .next t) : StepCase s m t := by
  cases m with
  | fg => exact fetchForeground_cases h
  | timer => exact fetchTimer_cases h
  | isr ch => exact fetchHandler_cases h
  | push b => exact fetchPush_cases h
  | pull => exact fetchPull_cases h
  | framing =>
    simp only [fetch, fetchCondition] at h
    split at h
    · obtain ⟨ok, rfl⟩ := execFaultFraming_next h
      exact .framing ok
    · cases h; exact .nothing _
  | fifo =>
    simp only [fetch, fetchCondition] at h
    split at h
    · obtain ⟨ok, rfl⟩ := execFaultFifo_next h
      exact .fifo ok
    · cases h; exact .nothing _
  | reset =>
    simp only [fetch, fetchReset] at h
    split at h
    · next hg => cases h; exact .reset hg.1 hg.2
    · cases h; exact .nothing _

/-- What a step can do: under a legal configuration, the next move is taken and one of the cases happens. -/
theorem step_cases {s t : State} (h : step s = .next t) :
    s.cfg.legal = true ∧ StepCase s.afterMove s.move t := by
  unfold step at h
  split at h
  · next hl => exact ⟨hl, fetch_cases h⟩
  · cases h

/-- Taking the move changes neither the fault nor the handler. -/
theorem State.afterMove_free {s : State} (h : s.free) : s.afterMove.free := ⟨by simp [h.1], by simp [h.2]⟩

/-- RXQ grows by at most the byte that the move pushes. -/
theorem StepCase.rxq_length_le {s t : State} {m : Move} (h : StepCase s m t) :
    t.rxq.length ≤ s.rxq.length + pushesOf m := by
  cases h with
  | lineEnd => simp [State.storeNewline, pushesOf]
  | reset => simp [State.platformReset, State.resetWith]
  | _ => simp [pushesOf]

/-- No step writes a parameter. -/
theorem StepCase.cfg_eq {s t : State} {m : Move} (h : StepCase s m t) : t.cfg = s.cfg := by
  cases h with
  | lineEnd => simp [State.storeNewline]
  | _ => simp

/-- The pushes of a run, one step on. -/
theorem pushesAlong_succ {s t : State} (n : Nat) (ok : s.fault = .noFault) (h : step s = .next t) :
    pushesAlong (n + 1) s = pushesOf s.move + pushesAlong n t := by
  simp only [pushesAlong, ok, ite_true, h]

end Sys2Proof.Machine
end

