-- ==== Sys2Proof/Tests/Slice0.lean ====
section
/-! SUPPORT. Small tests. Expected values come from the spec's worked vectors (95_test_vectors.md, named in each comment) or
from its rules by hand. The witnesses show that the hypotheses of each statement can be met together. -/

namespace Sys2Proof.Tests

open Sys2Proof.Machine

/-! The instantiation of 95_test_vectors.md, with small buffers. -/

def platform : Platform where
  t1BeyondFirst := 9
  gapAB := 9
  gapBC := 9
  gapCD := 9
  fTick := 1000
  bitsBeyondT4 := 0
  latchActive := .high
  finishActive := .high
  rxBeyondFirst := 3
  txBeyondFirst := 31
  serialFormat := ⟨9600, 8, 0, 1⟩
  pinMap := ⟨1, 2, 3, 4⟩
  faultPolicy := .reset

/-- The reset state of that instantiation (V-I1), with the given moves to come. -/
def base (moves : List Move) : State := { State.resetWith ⟨64, false, platform⟩ with agenda := moves }

/-- A running serializer at the cursor (byte, bit) with IMAGE[byte] = v. -/
def running (byte : BitVec 17) (bit : BitVec 3) (v : Byte) (moves : List Move) : State :=
  { base moves with
      seq := .waitRun, serState := .running, tmrEn := true, byteIndex := byte, bitIndex := bit
      image := [(byte.toNat, v)] }

/-- What holds in the next state, if there is one. -/
def after {α : Type} (o : Out) (f : State → α) : Option α :=
  match o with
  | .next t => some (f t)
  | .fault _ => none
  | .refused _ => none

/-- The fault an outcome names. -/
def faultOf (o : Out) : Option Machine.Fault :=
  match o with
  | .fault r => some r
  | .next _ => none
  | .refused _ => none

/-- The refusal an outcome names. -/
def refusalOf (o : Out) : Option Refusal :=
  match o with
  | .refused r => some r
  | .next _ => none
  | .fault _ => none

/-! Ill-formed operations, one for each check. -/

theorem test_ill_formed_append_newline : (Instr.lineAppend 0x0A).wellFormed = false := by decide
theorem test_ill_formed_other_unterminated : (Instr.cmdOther [0x41]).wellFormed = false := by decide
theorem test_ill_formed_other_two_newlines : (Instr.cmdOther [0x0A, 0x41, 0x0A]).wellFormed = false := by decide
theorem test_ill_formed_other_overlong :
    (Instr.cmdOther (List.replicate 512 0x41 ++ [0x0A])).wellFormed = false := by decide +kernel
theorem test_ill_formed_other_is_transfer : (Instr.cmdOther transferLiteral).wellFormed = false := by decide
theorem test_ill_formed_other_is_boot3wb : (Instr.cmdOther boot3wbLiteral).wellFormed = false := by decide
theorem test_ill_formed_final_reset_on_a : (Instr.timerArmChannel .chA 10 true).wellFormed = false := by decide

/-! Words written out from the spec. -/

/-- R84: "TRANSFER\r\n" is another line (V-R5); the longest legal line is accepted and one byte more is not (R90). -/
theorem test_decode_crlf :
    decode .lineDone [0x54, 0x52, 0x41, 0x4E, 0x53, 0x46, 0x45, 0x52, 0x0D, 0x0A]
      = .ok (.cmdOther [0x54, 0x52, 0x41, 0x4E, 0x53, 0x46, 0x45, 0x52, 0x0D, 0x0A]) [] := by decide
theorem test_decode_longest_line :
    decode .lineDone (List.replicate 511 0x41 ++ [0x0A]) = .ok (.cmdOther (List.replicate 511 0x41 ++ [0x0A])) [] := by
  decide +kernel
theorem test_decode_overlong_line :
    decode .lineDone (List.replicate 512 0x41 ++ [0x0A]) = .reject .overlongLine := by decide +kernel
theorem test_decode_unterminated : decode .lineDone [0x41] = .reject .unterminatedLine := by decide
theorem test_decode_no_channel : decode (.event true true) [0b100] = .reject .notAChannel := by decide
theorem test_decode_no_line_write : decode .gpio [0b1000] = .reject .notALineWrite := by decide
/-- R87, R157: the same code is EVT_D or EVT_IGNORED by SER_STATE. -/
theorem test_decode_event_d : decode (.event true true) [0b11] = .ok .evtD [] := by decide
theorem test_decode_event_ignored : decode (.event false true) [0b11] = .ok (.evtIgnored .chD) [] := by decide
/-- V-G3: SetLine(CLOCK, ASSERTED) is id 10, level 0. -/
theorem test_decode_set_line : decode .gpio [0b100] = .ok (.setLine .clock .low) [] := by decide
theorem test_decode_raw_newline : decode (.rawByte true) [0b00001010] = .ok (.dataLast 0x0A) [] := by decide
theorem test_decode_overrun_newline : decode (.lineByte false) [0b00001010] = .ok (.faultCmdOverrun 0x0A) [] := by
  decide
/-- The table's own words (R92). -/
theorem test_table_line_end : decodeTableWord 8 0x0A = some .lineEnd := by decide
theorem test_table_events :
    decodeTableWord 8 0 = some .evtA ∧ decodeTableWord 8 1 = some .evtB ∧ decodeTableWord 8 2 = some .evtC
      ∧ decodeTableWord 8 3 = some .evtD := by decide
theorem test_table_transfer : decodeTableWord 72 0x5452414E534645520A = some .cmdTransfer := by decide
theorem test_table_boot3wb : decodeTableWord 64 0x424F4F543357420A = some .cmdBoot3wb := by decide
theorem test_placed_line_end_runs : after (step (State.reset.withFetchWord 8 0x0A)) (·.seq) = some .rxData := by decide
theorem test_placed_event_runs :
    after (step (State.reset.withFetchWord 8 3)) (fun t => (t.line.clock, t.tmrPend.d)) = some (.high, false) := by
  decide
theorem test_placed_boot3wb_runs :
    after (step (State.reset.withFetchWord 64 0x424F4F543357420A)) (fun t => (t.bootFlag, t.fgTx))
      = some (true, some ⟨.bootloadStarted, 0⟩) := by decide

/-! One step of each operation. -/

/-- R101's example: CMD_LEN = 3 and 0x53 give CMD[3] = 0x53 and CMD_LEN = 4. -/
theorem test_line_append :
    after (exec (.lineAppend 0x53) { base [] with cmdLen := 3, rxq := [0x53] })
      (fun t => (t.readCmd 3, t.cmdLen, t.rxq)) = some (0x53, 4, []) := by decide
/-- V-R9: the newline after 512 bytes is not a LINE_END. -/
theorem test_line_end_full :
    faultOf (exec .lineEnd { base [] with cmdLen := 512, rxq := [0x0A] }) = some .notEnabled := by decide
/-- V-R4: TRANSFER as the second line leaves BOOT_FLAG at 1. -/
theorem test_line_end_transfer :
    after (exec .lineEnd { base [] with
        seq := .rxCmd2, bootFlag := true, cmdLen := 8, rxq := [0x0A]
        cmd := placeBytes 0 [0x54, 0x52, 0x41, 0x4E, 0x53, 0x46, 0x45, 0x52] [] })
      (fun t => (t.fgTx, t.bootFlag, t.cmdLen, t.seq)) = some (some ⟨.transferStarted, 0⟩, true, 0, .rxCmd2) := by decide
/-- V-R14: stale bytes above the line are not compared. -/
theorem test_line_end_stale :
    after (exec .lineEnd { base [] with
        seq := .rxCmd2, cmdLen := 7, rxq := [0x0A]
        cmd := placeBytes 0 [0x42, 0x4F, 0x4F, 0x54, 0x33, 0x57, 0x42, 0x4F, 0x52, 0x4C, 0x44, 0x0A] [] })
      (fun t => (t.fgTx, t.bootFlag, t.readCmd 7, t.readCmd 8)) = some (some ⟨.bootloadStarted, 0⟩, true, 0x0A, 0x52) := by
  decide
/-- V-R10: 0x0A is data in RX_DATA. -/
theorem test_data_byte :
    after (exec (.dataByte 0x0A) { base [] with seq := .rxData, rxq := [0x0A, 0x42] })
      (fun t => (t.readImage 0, t.dataCnt, t.rxq, t.fgTx)) = some (0x0A, 1, [0x42], none) := by decide
/-- V-R12. -/
theorem test_data_last :
    after (exec (.dataLast 0xFF) { base [] with seq := .rxData, dataCnt := 65535, rxq := [0xFF] })
      (fun t => (t.readImage 65535, t.dataCnt, t.fgTx, t.seq)) = some (0xFF, 65536, some ⟨.dataAck, 0⟩, .rxData) := by
  decide
/-- R109's example: the last byte of "data_ack\n". -/
theorem test_fg_send_last :
    after (exec .fgSend { base [] with seq := .rxData, fgTx := some ⟨.dataAck, 8⟩ }) (fun t => (t.txq, t.fgTx, t.seq))
      = some ([0x0A], none, .rxCmd2) := by decide
/-- V-R15: with TXQ full the foreground waits. -/
theorem test_fg_send_waits :
    after (exec .fgSend { base [] with fgTx := some ⟨.transferStarted, 5⟩, txq := List.replicate 32 0x41 })
      (fun t => (t.txq.length, t.fgTx)) = some (32, some ⟨.transferStarted, 5⟩) := by decide
/-- V-R9: the overrun pops the byte, and leaves CMD_LEN. -/
theorem test_cmd_overrun :
    after (exec (.faultCmdOverrun 0x0A) { base [] with cmdLen := 512, rxq := [0x0A] })
      (fun t => (t.fault.code, t.seq, t.cmdLen, t.rxq)) = some (4, .faulted, 512, []) := by decide
/-- V-Q2. -/
theorem test_decide_false : after (exec .decideBoot { base [] with seq := .deciding }) (·.seq) = some .waitIdle := by decide
/-- V-Q3. -/
theorem test_arm :
    after (exec .arm { base [] with seq := .doArm })
      (fun t => (t.tmrPeriod, t.tmrCC, t.tmrClr, t.serState))
      = some (40, ⟨10, 20, 30, 40⟩, ⟨false, false, false, true⟩, .armed) := by decide
/-- V-Q6. -/
theorem test_arm_refused : refusalOf (exec .arm (running 0 0 0 [])) = some .ctrlOutOfOrder := by decide
/-- V-Q4. -/
theorem test_start :
    after (exec .start { base [] with seq := .doStart, serState := .armed }) (fun t => (t.serState, t.tmrEn, t.seq))
      = some (.running, true, .waitRun) := by decide
/-- V-S1: 0xA5, bit 0 is 1, so DATA is LOW. -/
theorem test_evt_a :
    after (exec .evtA (running 0 0 0xA5 [])) (fun t => (t.line.data, t.byteIndex, t.bitIndex, t.history))
      = some (.low, 0, 1, [.lineWrite .data .low (some .chA)]) := by decide
/-- V-S3: bit 7 of 0xE4 is 1, and the cursor moves from (63, 7) to (64, 0). -/
theorem test_evt_a_wraps :
    after (exec .evtA (running 63 7 0xE4 [])) (fun t => (t.line.data, t.byteIndex, t.bitIndex)) = some (.low, 64, 0) := by
  decide
/-- V-S4 and V-S6. -/
theorem test_evt_b :
    after (exec .evtB (running 4 0 0 [])) (·.line.latch) = some .high
      ∧ after (exec .evtB { running 2 0 0 [] with line := ⟨.low, .high, .high, .low⟩ }) (·.line.latch) = some .low := by
  decide
/-- V-S7. -/
theorem test_evt_c : after (exec .evtC (running 0 1 0 [])) (fun t => (t.line.clock, t.bitIndex)) = some (.low, 1) := by decide
/-- V-S8. -/
theorem test_evt_d : after (exec .evtD (running 63 5 0 [])) (fun t => (t.line.clock, t.handler)) = some (.high, none) := by
  decide
/-- V-S9: the terminal cursor. -/
theorem test_evt_d_terminal :
    after (exec .evtD (running 64 0 0 [])) (fun t => (t.line.finish, t.handler, t.tmrEn)) = some (.high, some 0, true) := by
  decide
/-- V-S10's first and last steps. -/
theorem test_d_send_first :
    after (exec .dSend { running 64 0 0 [] with handler := some 0 }) (fun t => (t.txq, t.handler))
      = some ([0x62], some 1) := by decide
theorem test_d_send_last :
    after (exec .dSend { running 64 0 0 [] with handler := some 17 }) (fun t => (t.txq, t.handler, t.tmrEn, t.serState))
      = some ([], none, false, .done) := by decide
/-- V-S13. -/
theorem test_dispatch_ignored :
    after (exec (.dispatch .chA) { base [] with serState := .armed, tmrPend := ⟨true, false, false, false⟩ })
      (fun t => (t.tmrPend.a, t.line, t.history)) = some (false, ⟨.low, .low, .high, .low⟩, []) := by decide
/-- V-T5: either pending channel may be taken. -/
theorem test_dispatch_chooses :
    after (exec (.dispatch .chC) { running 0 0 0 [] with tmrPend := ⟨true, false, true, false⟩ })
      (fun t => (t.tmrPend, t.line.clock)) = some (⟨true, false, false, false⟩, .low) := by decide
/-- V-G5. -/
theorem test_set_line :
    after (exec (.setLine .clock .low) (base [])) (·.line) = some ⟨.low, .low, .low, .low⟩ := by decide
/-- V-T1 and V-T2. -/
theorem test_timer_fire :
    after (exec .timerFire { running 0 0 0 [] with tmrNext := .chD }) (fun t => (t.tmrPend, t.tmrNext))
      = some (⟨false, false, false, true⟩, .chA) := by decide
theorem test_timer_fire_absorbed :
    after (exec .timerFire { running 0 0 0 [] with tmrNext := .chB, tmrPend := ⟨false, true, false, false⟩ })
      (fun t => (t.tmrPend, t.tmrNext)) = some (⟨false, true, false, false⟩, .chC) := by decide
/-- V-T3. -/
theorem test_timer_disabled : faultOf (exec .timerFire (base [])) = some .notEnabled := by decide
/-- V-T8. -/
theorem test_timer_configure : after (exec (.timerConfigure 40) (base [])) (·.tmrPeriod) = some 40 := by decide
theorem test_timer_arm_channel :
    after (exec (.timerArmChannel .chD 40 true) (base [])) (fun t => (t.tmrCC, t.tmrClr))
      = some (⟨0, 0, 0, 40⟩, ⟨false, false, false, true⟩) := by decide
/-- V-T6: tick 40 sets D pending and resets the counter. -/
theorem test_tick :
    after (step { running 0 0 0 [.timer] with
        cfg := ⟨64, true, platform⟩, tmrCC := ⟨10, 20, 30, 40⟩, tmrClr := ⟨false, false, false, true⟩, tmrCount := 39 })
      (fun t => (t.tmrPend, t.tmrCount)) = some (⟨false, false, false, true⟩, 0) := by decide
/-- V-F1: the fifth byte onto a RXQ of four. -/
theorem test_rx_overrun :
    after (step { running 0 3 0 [.push 0x58] with rxq := [0x58, 0x58, 0x58, 0x58] })
      (fun t => (t.fault.code, t.seq, t.tmrEn, t.rxq.length, t.serState, t.bitIndex))
      = some (2, .faulted, false, 4, .running, 3) := by decide
/-- V-F4: a framing error during D_SEND. -/
theorem test_framing :
    after (step { running 64 0 0 [.framing] with handler := some 7, line := ⟨.low, .high, .high, .high⟩ })
      (fun t => (t.fault.code, t.handler, t.tmrEn, t.serState, t.line.finish))
      = some (1, none, false, .running, .high) := by decide
/-- V-F3. -/
theorem test_fifo : after (exec .faultFifo (base [])) (fun t => (t.fault.code, t.seq)) = some (3, .faulted) := by decide
/-- V-F6: an illegal configuration is refused, and EVT_A at BYTE_INDEX = 65536 faults before any line is written. -/
theorem test_illegal_terminal_count :
    refusalOf (step { base [.fg] with cfg := ⟨65537, false, platform⟩ }) = some .illegalConfiguration := by decide
theorem test_image_oob :
    after (exec .evtA (running 65536 0 0 [])) (fun t => (t.fault.code, t.history, t.byteIndex)) = some (5, [], 65536) := by
  decide
/-- V-F5: no second fault is recorded. -/
theorem test_second_fault :
    after (step { base [.framing] with fault := .cmdOverrun, seq := .faulted }) (·.fault) = some .cmdOverrun := by decide
/-- V-R16: with RXQ empty the foreground is blocked, which is no fault. -/
theorem test_blocked :
    ForegroundBlocked (base []) ∧ after (step (base [.fg])) (fun t => (t.seq, t.fault)) = some (.rxCmd1, .noFault) := by
  decide
/-- V-T6 and V-T7: the handler's deadline in ticks; P5: a run of 512 periods of 40 ticks lasts 20480 ticks. -/
theorem test_deadline :
    (platform.t1, platform.t2, platform.t3, platform.t4, platform.timerBits) = (10, 20, 30, 40, 6)
      ∧ deadlineTicks platform = 10
      ∧ (let p := { platform with t1BeyondFirst := 4, gapAB := 6, gapBC := 17, gapCD := 0 }
         (p.t1, p.t2, p.t3, p.t4) = (5, 12, 30, 31) ∧ deadlineTicks p = 1)
      ∧ serializationTicks (Params.mk 64 false platform) = 20480 := by decide

/-! Witnesses: each statement's hypotheses can be met together. -/

theorem test_witness_DecodeOfEncodeIsIdentity :
    (Instr.cmdOther [0x0A]).wellFormed = true ∧ (Instr.timerArmChannel .chD 40 true).wellFormed = true
      ∧ (Instr.lineAppend 0x0D).wellFormed = true := by decide
theorem test_witness_DecodedIsWellFormed : decode .lineDone [0x0A, 0x41] = .ok (.cmdOther [0x0A]) [0x41] := by decide
theorem test_witness_LinesAreClassified :
    isLine transferLiteral = true ∧ isLine boot3wbLiteral = true
      ∧ (isLine (List.replicate 511 0x41 ++ [0x0A]) = true ∧ (List.replicate 511 0x41 ++ [0x0A] : List Byte).length ≤ cmdCap)
      ∧ newline ∉ ((List.replicate 512 0x41 ++ [0x0A] : List Byte)).take cmdCap := by decide +kernel
theorem test_witness_CanonicalSpaces : Memory.wf [(3, 0x41), (7, 0x00)] = true := by decide
theorem test_witness_LineAppend :
    let s := { base [] with cmdLen := 511, rxq := [0x0D] }
    s.lineReady ∧ s.rxq = 0x0D :: [] ∧ (0x0D : Byte) ≠ newline ∧ s.cmdLen.toNat < cmdCap := by decide
/-- One state for each of the three commands, the last at the longest legal line (V-R8). -/
theorem test_witness_LineEnd :
    (let s := { base [] with cmdLen := 511, rxq := [0x0A] }
     s.lineReady ∧ s.rxq = newline :: [] ∧ s.cmdLen.toNat < cmdCap)
    ∧ (let s := { base [] with cmdLen := 8, rxq := [0x0A], cmd := placeBytes 0 (transferLiteral.take 8) [] }
       s.lineReady ∧ s.rxq = newline :: [] ∧ s.storeNewline.lineBytes 9 = transferLiteral)
    ∧ (let s := { base [] with cmdLen := 7, rxq := [0x0A], cmd := placeBytes 0 (boot3wbLiteral.take 7) [] }
       s.lineReady ∧ s.rxq = newline :: [] ∧ s.storeNewline.lineBytes 8 = boot3wbLiteral) := by decide
theorem test_witness_Commands :
    (base []).lineReady ∧ { base [] with seq := .rxCmd2 }.lineReady := by decide
theorem test_witness_DataByte :
    let s := { base [] with seq := .rxData, dataCnt := 65534, rxq := [0x37] }
    s.rawReady ∧ s.rxq = 0x37 :: [] ∧ s.dataCnt.toNat < imageSize - 1 := by decide
theorem test_witness_DataLast :
    let s := { base [] with seq := .rxData, dataCnt := 65535, rxq := [0xFF] }
    s.rawReady ∧ s.rxq = 0xFF :: [] ∧ s.dataCnt.toNat = imageSize - 1 := by decide
/-- A byte before the last with the last free place of TXQ, and the last byte. -/
theorem test_witness_FgSend :
    (let s := { base [] with fgTx := some ⟨.transferStarted, 15⟩, txq := List.replicate 31 0x41 }
     s.free ∧ s.seq.isReception = true ∧ Msg.transferStarted.bytes[15]? = some 0x64 ∧ s.txRoom
       ∧ 15 + 1 < Msg.transferStarted.bytes.length)
    ∧ (let s := { base [] with seq := .rxCmd2, fgTx := some ⟨.transferStarted, 16⟩ }
       s.free ∧ s.seq.isReception = true ∧ Msg.transferStarted.bytes[16]? = some 0x0A ∧ s.txRoom
         ∧ 16 + 1 = Msg.transferStarted.bytes.length) := by decide
/-- Each of the three waits, TXQ full to the byte. -/
theorem test_witness_BlockedAgentsWait :
    (let s := { base [] with fgTx := some ⟨.transferStarted, 16⟩, txq := List.replicate 32 0x41 }
     s.free ∧ s.seq.isReception = true ∧ 16 < Msg.transferStarted.bytes.length ∧ ¬ s.txRoom)
    ∧ (let s := { running 64 0 0 [] with handler := some 16, txq := List.replicate 32 0x41 }
       s.fault = .noFault ∧ s.handler = some 16 ∧ ¬ s.txRoom)
    ∧ (let s := base [.fg]
       s.cfg.legal = true ∧ s.move = .fg ∧ s.seq.isReception = true ∧ s.fgTx = none ∧ s.rxq = []) := by decide
theorem test_witness_ReplyIsSent :
    let s := { base (List.replicate 9 .fg ++ [.pull]) with
      seq := .rxData, fgTx := some ⟨.dataAck, 0⟩, txq := List.replicate 23 0x41 }
    let text : List Byte := [0x64, 0x61, 0x74, 0x61, 0x5F, 0x61, 0x63, 0x6B, 0x0A]
    s.cfg.legal = true ∧ s.free ∧ s.seq.isReception = true ∧ s.fgTx = some ⟨.dataAck, 0⟩
      ∧ s.txq.length + text.length ≤ s.cfg.platform.txCap
      ∧ s.agenda = List.replicate text.length .fg ++ [.pull] := by decide
theorem test_witness_CommandOverrun :
    let s := { base [.fg] with cmdLen := 512, rxq := [0x0A, 0x41] }
    s.lineReady ∧ s.rxq = 0x0A :: [0x41] ∧ s.cmdLen.toNat = cmdCap ∧ s.cfg.legal = true ∧ s.move = .fg
      ∧ s.afterMove.lineReady := by decide
/-- One state for each clause. -/
theorem test_witness_ReceivedByte :
    (let s := { base [.fg] with cmdLen := 511, rxq := [0x0A] }
     s.cfg.legal = true ∧ s.move = .fg ∧ s.afterMove.lineReady ∧ s.rxq = 0x0A :: [] ∧ s.cmdLen.toNat < cmdCap)
    ∧ (let s := { base [.fg] with seq := .rxData, dataCnt := 65534, rxq := [0x0A] }
       s.move = .fg ∧ s.afterMove.rawReady ∧ s.dataCnt.toNat < imageSize - 1)
    ∧ (let s := { base [.fg] with seq := .rxData, dataCnt := 65535, rxq := [0x0A] }
       s.move = .fg ∧ s.afterMove.rawReady ∧ s.dataCnt.toNat = imageSize - 1)
    ∧ (let s := { base [.fg] with seq := .waitIdle, rxq := [0x41] }
       s.move = .fg ∧ s.seq.isReception = false ∧ after (step s) (·.rxq) = some [0x41]) := by decide
theorem test_witness_Decide :
    (let s := { base [] with seq := .deciding, bootFlag := true }
     s.free ∧ s.seq = .deciding ∧ s.bootFlag = true)
    ∧ (let s := { base [] with seq := .deciding }
       s.free ∧ s.seq = .deciding ∧ s.bootFlag = false) := by decide
theorem test_witness_Arm :
    let s := { base [] with seq := .doArm }
    s.free ∧ s.seq = .doArm ∧ s.serState = .idle := by decide
theorem test_witness_Start :
    let s := { base [] with seq := .doStart, serState := .armed }
    s.free ∧ s.seq = .doStart ∧ s.serState = .armed := by decide
theorem test_witness_OutOfOrder :
    ¬ ((base []).seq = .doArm ∧ (base []).serState = .idle)
      ∧ ¬ ((base []).seq = .doStart ∧ (base []).serState = .armed) := by decide
theorem test_witness_Waits :
    (let s := running 0 0 0 [.fg]
     s.free ∧ s.seq = .waitRun ∧ s.cfg.legal = true ∧ s.move = .fg)
    ∧ (let s := { base [.fg] with seq := .waitIdle }
       s.free ∧ s.seq = .waitIdle ∧ s.cfg.legal = true ∧ s.move = .fg)
    ∧ (let s := { running 64 0 0 [.fg] with handler := some 5 }
       s.cfg.legal = true ∧ s.move = .fg ∧ s.seq = .waitRun) := by decide
/-- The last byte of IMAGE, at its last bit and before it, and the index after it. -/
theorem test_witness_EvtA :
    (let s := running 65535 7 0xA5 []
     s.free ∧ s.serState = .running ∧ s.byteIndex.toNat < imageSize ∧ s.bitIndex.toNat = 7)
    ∧ (let s := running 65535 6 0xA5 []
       s.free ∧ s.serState = .running ∧ s.byteIndex.toNat < imageSize ∧ s.bitIndex.toNat < 7)
    ∧ (let s := running 65536 0 0xA5 []
       s.free ∧ s.serState = .running ∧ imageSize ≤ s.byteIndex.toNat) := by decide
theorem test_witness_ImageOutOfRange :
    let s := running 65536 0 0 []
    s.free ∧ s.serState = .running ∧ imageSize ≤ s.byteIndex.toNat := by decide
theorem test_witness_Events :
    (let s := running 4 0 0 []
     s.free ∧ s.serState = .running ∧ s.byteIndex.toNat ≠ s.cfg.terminalCount)
    ∧ (let s := running 64 0 0 []
       s.free ∧ s.serState = .running ∧ s.byteIndex.toNat = s.cfg.terminalCount) := by decide
/-- The last byte with room, and the end. -/
theorem test_witness_DSend :
    (let s := { running 64 0 0 [] with handler := some 16, txq := List.replicate 31 0x41 }
     s.fault = .noFault ∧ s.handler = some 16 ∧ bootloadSuccess[16]? = some 0x0A ∧ s.txRoom)
    ∧ (let s := { running 64 0 0 [] with handler := some 17 }
       s.fault = .noFault ∧ s.handler = some 17) := by decide
theorem test_witness_CompletionSequence :
    let s := { running 64 0 0 (List.replicate 18 (.isr .chB) ++ [.pull]) with
      handler := some 0, txq := List.replicate 15 0x41 }
    s.cfg.legal = true ∧ s.fault = .noFault ∧ s.handler = some 0 ∧ s.txq.length + 17 ≤ s.cfg.platform.txCap
      ∧ s.agenda = List.replicate 18 (.isr .chB) ++ [.pull] := by decide
theorem test_witness_IgnoredEvents : (base []).free ∧ (base []).serState ≠ .running := by decide
theorem test_witness_Dispatch :
    (let s := { running 0 0 0 [] with tmrPend := ⟨false, false, false, true⟩ }
     s.free ∧ s.tmrPend.get .chD = true ∧ s.serState = .running)
    ∧ (let s := { base [] with tmrPend := ⟨true, false, false, false⟩ }
       s.free ∧ s.tmrPend.get .chA = true ∧ s.serState ≠ .running) := by decide
theorem test_witness_TimerFires : (running 0 0 0 []).tmrEn = true ∧ (running 0 0 0 []).fault = .noFault := by decide
theorem test_witness_TimerOperations :
    63 < 2 ^ (base []).cfg.platform.timerBits := by decide
theorem test_witness_Tick :
    let s := { running 0 0 0 [.timer] with
      cfg := ⟨64, true, platform⟩, tmrCC := ⟨10, 20, 30, 40⟩, tmrClr := ⟨false, false, false, true⟩, tmrCount := 39 }
    s.cfg.legal = true ∧ s.cfg.tickLevel = true ∧ s.move = .timer ∧ s.tmrEn = true ∧ s.fault = .noFault
      ∧ s.tmrCC = ⟨s.cfg.platform.t1, s.cfg.platform.t2, s.cfg.platform.t3, s.cfg.platform.t4⟩
      ∧ s.tmrClr = ⟨false, false, false, true⟩ ∧ s.tmrCount < s.cfg.platform.t4 := by decide
/-- A running tick-level timer at `count`, with the channels as ARM leaves them and EVT_A pending. -/
def ticking (count : Nat) : State :=
  { running 0 0 0 [.timer] with
      cfg := ⟨64, true, platform⟩, tmrCC := ⟨10, 20, 30, 40⟩, tmrClr := ⟨false, false, false, true⟩
      tmrCount := count, tmrPend := ⟨true, false, false, false⟩ }
/-- V-T6's offsets: EVT_A fired at 10, and the tick to 19 still comes under H-DEADLINE while it is pending. -/
theorem test_witness_Tick_deadline :
    HDeadline (ticking 18) ∧ (ticking 18).serState = .running ∧ (ticking 18).handler = none
      ∧ ¬ (ticking 18).noPending ∧ (ticking 18).tmrCount < (ticking 18).cfg.platform.t4 := by
  refine ⟨⟨fun _ _ _ h => absurd h (by decide), fun _ _ _ _ ch h _ => ?_⟩, by decide⟩
  cases ch
  · decide
  · cases h
  · cases h
  · cases h
/-- The tick to 20 fires EVT_B, so EVT_A must have been dispatched before it. -/
theorem test_deadline_missed : ¬ HDeadline (ticking 19) :=
  fun h => absurd (h.beforeNext (by decide) (by decide) (by decide) (by decide)) (by decide)
/-- With a gap wider than G, the tick after G ticks breaks the bound though it fires nothing: T = (5, 12, 30, 31), G = 1. -/
theorem test_deadline_within_g :
    let s := { ticking 6 with
      cfg := ⟨64, true, { platform with t1BeyondFirst := 4, gapAB := 6, gapBC := 17, gapCD := 0 }⟩
      tmrCC := ⟨5, 12, 30, 31⟩ }
    s.nextFirings = ⟨false, false, false, false⟩ ∧ ¬ HDeadline s :=
  ⟨by decide, fun h =>
    absurd (h.withinG (by decide) (by decide) (by decide) (by decide) .chA (by decide) (by decide)) (by decide)⟩
theorem test_witness_TransportFaults :
    let s := { base [] with rxq := List.replicate 4 0x58 }
    s.fault = .noFault ∧ s.cfg.platform.rxCap ≤ s.rxq.length := by decide
theorem test_witness_HostPushesAndPulls :
    (let s := { base [.push 0x41] with rxq := List.replicate 3 0x58 }
     s.cfg.legal = true ∧ s.move = .push 0x41 ∧ s.fault = .noFault ∧ s.rxq.length < s.cfg.platform.rxCap)
    ∧ (let s := { base [.push 0x41] with rxq := List.replicate 4 0x58 }
       s.move = .push 0x41 ∧ s.fault = .noFault ∧ s.cfg.platform.rxCap ≤ s.rxq.length)
    ∧ (let s := { base [.pull] with fault := .xportFifo, txq := [0x41, 0x42] }
       s.move = .pull ∧ s.txq = 0x41 :: [0x42]) := by decide
/-- H-QUIET with RXQ one byte short of full: the host pushes the last byte it may, and then a framing error ends the
run. A byte more, and it does not hold. -/
theorem test_witness_HQuiet :
    let s := { base [.push 0x41, .framing] with seq := .waitIdle, rxq := List.replicate 3 0x58 }
    s.fault = .noFault ∧ s.secondLineRead = true ∧ HQuiet s ∧ ∃ t, step s = .next t := by
  refine ⟨by decide, by decide, fun _ n => ?_, _, rfl⟩
  match n with
  | 0 => decide
  | 1 => decide
  | 2 => decide
  | _ + 3 => exact Nat.le_refl 4
theorem test_not_quiet :
    ¬ HQuiet { base [.push 0x41] with seq := .rxCmd2, fgTx := some ⟨.dataAck, 0⟩, rxq := List.replicate 4 0x58 } :=
  fun h => absurd (h rfl 1) (by decide)
theorem test_witness_FaultsAreSticky :
    let s := { base [.pull] with fault := .xportFifo, seq := .faulted, txq := [0x41] }
    s.fault ≠ .noFault ∧ s.move ≠ .reset ∧ ∃ t, step s = .next t :=
  ⟨by decide, by decide, _, rfl⟩
/-- A step that raises each fault. -/
theorem test_witness_FaultsHaveTheirCauses :
    after (step (base [.framing])) (·.fault) = some .xportFraming
      ∧ after (step (base [.fifo])) (·.fault) = some .xportFifo
      ∧ after (step { base [.push 0x41] with rxq := List.replicate 4 0x58 }) (·.fault) = some .xportOverrun
      ∧ after (step { base [.fg] with cmdLen := 512, rxq := [0x41] }) (·.fault) = some .cmdOverrun
      ∧ after (step { running 65536 0 0 [.isr .chA] with tmrPend := ⟨true, false, false, false⟩ }) (·.fault)
          = some .imageOob := by decide
theorem test_witness_StepRuns :
    (let s := { base [.fg] with rxq := [0x53] }
     s.cfg.legal = true ∧ fetch s.move s.afterMove = .unit (.lineByte true) [0x53]
       ∧ decode (.lineByte true) [0x53] = .ok (.lineAppend 0x53) [])
    ∧ (let s := base [.fg]
       s.cfg.legal = true ∧ fetch s.move s.afterMove = .nothing) := by decide
/-- The foreground in each phase that a clause names, and with the last byte of a message due. -/
theorem test_witness_StepRuns_foreground :
    (base [.fg]).move = .fg ∧ (base [.fg]).cfg.legal = true
      ∧ { base [.fg] with seq := .deciding }.free ∧ { base [.fg] with seq := .doArm }.free
      ∧ { base [.fg] with seq := .doStart, serState := .armed }.free ∧ (running 0 0 0 [.fg]).free
      ∧ { base [.fg] with seq := .waitIdle }.free
      ∧ (let s := { base [.fg] with seq := .rxData, fgTx := some ⟨.dataAck, 8⟩ }
         s.free ∧ s.seq.isReception = true ∧ 8 < Msg.dataAck.bytes.length) := by decide
/-- The timer enabled and disabled, and the interrupt context with a handler, with a pending channel and with none. -/
theorem test_witness_StepRuns_events :
    (let s := running 0 0 0 [.timer]
     s.move = .timer ∧ s.fault = .noFault ∧ s.tmrEn = true ∧ s.cfg.tickLevel = false)
    ∧ (base [.timer]).tmrEn = false
    ∧ (let s := { running 0 0 0 [.isr .chD] with tmrPend := ⟨false, false, false, true⟩ }
       s.move = .isr .chD ∧ s.fault = .noFault ∧ s.handler = none ∧ s.tmrPend.get .chD = true)
    ∧ (running 0 0 0 [.isr .chD]).tmrPend.get .chD = false
    ∧ { running 64 0 0 [.isr .chD] with handler := some 17 }.handler ≠ none
    ∧ (base [.framing]).move = .framing ∧ (base [.fifo]).move = .fifo := by decide
theorem test_witness_IllegalTerminalCount :
    (Params.mk 0 false platform).terminalCount = 0 ∧ imageSize < (Params.mk 65537 false platform).terminalCount := by decide
theorem test_witness_HandlerIsNotPreempted :
    (let s := { running 64 0 0 [.fg] with handler := some 5 }
     s.handler ≠ none ∧ s.move = .fg ∧ ∃ t, step s = .next t)
    ∧ (let s := { running 64 0 0 [.isr .chA] with handler := some 5, tmrPend := ⟨true, true, false, false⟩ }
       s.handler ≠ none ∧ s.move = .isr .chA ∧ ∃ t, step s = .next t) :=
  ⟨⟨by decide, by decide, _, rfl⟩, ⟨by decide, by decide, _, rfl⟩⟩

/-- The sequence's invariant on a running serializer. -/
theorem running_sequenceInv (byte : BitVec 17) (bit : BitVec 3) (v : Byte) (moves : List Move) :
    SequenceInv (running byte bit v moves) := by
  constructor <;> simp [running, base, State.resetWith, Seq.isReception]

theorem test_witness_SerStateTransitions :
    let s := running 0 0 0 [.timer]
    SequenceInv s ∧ s.move ≠ .reset ∧ ∃ t, step s = .next t :=
  ⟨running_sequenceInv _ _ _ _, by decide, _, rfl⟩
/-- A phase that advances, and a fault. -/
theorem test_witness_PhasesOnlyAdvance :
    after (step { base [.fg] with seq := .deciding, bootFlag := true }) (·.seq) = some .doArm
      ∧ after (step (base [.framing])) (·.seq) = some .faulted := by decide
theorem test_witness_BootFlagIsOnlyEverSet :
    let s := { base [.fg] with cmdLen := 7, rxq := [0x0A], cmd := placeBytes 0 (boot3wbLiteral.take 7) [] }
    s.move ≠ .reset ∧ after (step s) (·.bootFlag) = some true ∧ s.bootFlag = false := by decide
/-- A write to each line, as an event of its owner. -/
theorem test_witness_LinesHaveOneOwner :
    after (step { running 0 1 0xA5 [.isr .chA] with tmrPend := ⟨true, false, false, false⟩ }) (·.line.data) = some .high
      ∧ after (step { running 4 0 0 [.isr .chB] with tmrPend := ⟨false, true, false, false⟩ }) (·.line.latch) = some .high
      ∧ after (step { running 4 0 0 [.isr .chC] with tmrPend := ⟨false, false, true, false⟩ }) (·.line.clock) = some .low
      ∧ after (step { running 64 0 0 [.isr .chD] with tmrPend := ⟨false, false, false, true⟩ }) (·.line.finish)
          = some .high := by decide
/-- V-S11: a spurious event in DONE. -/
theorem test_witness_DoneStaysQuiet :
    let s := { running 64 0 0 [.isr .chD] with serState := .done, tmrEn := false, tmrPend := ⟨false, false, false, true⟩ }
    s.serState = .done ∧ s.move ≠ .reset ∧ ∃ t, step s = .next t :=
  ⟨by decide, by decide, _, rfl⟩
theorem test_witness_BuffersAreWritten :
    let s := { base [.fg] with rxq := [0x41] }
    s.move ≠ .reset ∧ ¬ (s.move = .fg ∧ s.seq = .rxData) ∧ ∃ t, step s = .next t :=
  ⟨by decide, by decide, _, rfl⟩
theorem test_witness_ParametersStay : ∃ t, step (base [.push 0x41]) = .next t := ⟨_, rfl⟩
theorem test_witness_PlatformReset :
    let s := { running 0 3 0 [.reset] with fault := .xportFifo, seq := .faulted }
    s.cfg.legal = true ∧ s.move = .reset ∧ s.fault ≠ .noFault ∧ s.cfg.platform.faultPolicy = .reset := by decide
theorem test_witness_PlatformHalt :
    let s := { base [.reset] with cfg := ⟨64, false, { platform with faultPolicy := .halt }⟩, fault := .xportFifo }
    s.cfg.legal = true ∧ s.move = .reset ∧ s.fault ≠ .noFault ∧ s.cfg.platform.faultPolicy = .halt := by decide
theorem test_witness_MemoryCanonical :
    let s := { base [.fg] with seq := .rxData, dataCnt := 1, rxq := [0x41], image := [(0, 0x42)] }
    MemoryInv s ∧ ∃ t, step s = .next t :=
  ⟨by decide, _, rfl⟩
theorem test_witness_Ranges :
    let s := { base [.fg] with fgTx := some ⟨.dataAck, 8⟩, rxq := List.replicate 4 0x41 }
    RangeInv s ∧ ∃ t, step s = .next t :=
  ⟨⟨by decide, by decide, by intro t h; cases h; decide, by decide, by decide⟩, _, rfl⟩
theorem test_witness_TimerWidths :
    let s := { base [.fg] with seq := .doArm }
    TimerWidthInv s ∧ ∃ t, step s = .next t :=
  ⟨⟨by intro ch; cases ch <;> decide, by decide, by decide⟩, _, rfl⟩
theorem test_witness_Sequence :
    let s := running 0 0 0 [.timer]
    SequenceInv s ∧ s.cfg.legal = true ∧ ∃ t, step s = .next t :=
  ⟨running_sequenceInv _ _ _ _, by decide, _, rfl⟩
/-- The cursor's invariant, with EVT_D pending at the terminal cursor. -/
theorem test_witness_Cursor :
    let s := { running 64 0 0 [.isr .chD] with tmrPend := ⟨false, false, false, true⟩ }
    CursorInv s ∧ s.cfg.tickLevel = false ∧ HDeadline s ∧ s.fault = .noFault ∧ ∃ t, step s = .next t :=
  ⟨⟨by decide, by decide, by decide, by decide, fun _ _ _ => ⟨.inr ⟨.chD, rfl, rfl⟩, by decide⟩, by decide⟩,
    by decide, ⟨fun h => absurd h (by decide), fun h => absurd h (by decide)⟩, by decide, _, rfl⟩
/-- H-DEADLINE with a firing: no event is pending at the start of a period. -/
theorem test_witness_HDeadline_fire : HDeadline (running 0 0 0 [.timer]) ∧ (running 0 0 0 [.timer]).timerMoves :=
  ⟨⟨fun _ _ _ _ => by decide, fun _ _ _ h => absurd h (by decide)⟩, by decide⟩
/-- The `n` bytes `v` from index `lo` on. -/
def filled (v : Byte) : Nat → Nat → Memory
  | _, 0 => []
  | lo, n + 1 => (lo, v) :: filled v (lo + 1) n

theorem filled_read (v : Byte) (n lo a : Nat) (h1 : lo ≤ a) (h2 : a < lo + n) :
    Memory.read (filled v lo n) a = some v := by
  induction n generalizing lo with
  | zero => omega
  | succ n ih =>
    simp only [filled, Memory.read]
    split
    · rfl
    · exact ih (lo + 1) (by omega) (by omega)

/-- IMAGE populated: part of the way in RX_DATA, and whole on a running serializer at the last byte of IMAGE. -/
theorem test_witness_Populated :
    (let s := { base [.fg] with seq := .rxData, dataCnt := 2, rxq := [0x41], image := filled 0x42 0 2 }
     PopulatedInv s ∧ ∃ t, step s = .next t)
    ∧ (let s := { running 65535 7 0 [.isr .chA] with dataCnt := 65536, image := filled 0x42 0 65536 }
       SequenceInv s ∧ PopulatedInv s ∧ s.fault = .noFault ∧ s.serState = .running
         ∧ s.byteIndex.toNat < imageSize) := by
  refine ⟨⟨⟨fun a h => ?_, by decide⟩, _, rfl⟩, ?_, ⟨fun a h => ?_, fun _ => rfl⟩, rfl, rfl, by decide⟩
  · exact fun c => nomatch (filled_read 0x42 2 0 a (Nat.zero_le a) (by simpa using h)).symm.trans c
  · constructor <;> simp [running, base, State.resetWith, Seq.isReception]
  · exact fun c => nomatch (filled_read 0x42 65536 0 a (Nat.zero_le a) (by simpa using h)).symm.trans c
/-- Periods: two from the start, and the whole run of a serializer with TERMINAL_COUNT = 1. -/
theorem test_witness_Periods :
    (let s := running 0 0 0xA5 (periods 2 ++ [.fg])
     AtPeriodStart s ∧ s.byteIndex = 0 ∧ s.bitIndex = 0 ∧ 2 ≤ 8 * s.cfg.terminalCount ∧ s.agenda = periods 2 ++ [.fg])
    ∧ (let s := { running 0 0 0xA5 (periods 8 ++ []) with cfg := ⟨1, false, platform⟩ }
       AtPeriodStart s ∧ s.byteIndex = 0 ∧ s.bitIndex = 0 ∧ 8 = 8 * s.cfg.terminalCount ∧ s.agenda = periods 8 ++ []) := by
  decide

end Sys2Proof.Tests
end

namespace Sys2Proof.Machine

/-! # What a step is, by what its move fetches

A step of a legal configuration carries out what the next move selects in the state with that move taken. -/

theorem step_of_legal {s : State} (legal : s.cfg.legal = true) :
    step s = runFetched s.afterMove (fetch s.move s.afterMove) := if_pos legal

theorem step_of_illegal {s : State} (illegal : s.cfg.legal = false) : step s = .refused .illegalConfiguration := by
  simp [step, illegal]

theorem step_of_unit {s : State} {m : Move} {sel : Selector} {bytes rest : List Byte} {i : Instr}
    (legal : s.cfg.legal = true) (mv : s.move = m) (unit : fetch m s.afterMove = .unit sel bytes)
    (decoded : decode sel bytes = .ok i rest) : step s = exec i s.afterMove := by
  rw [step_of_legal legal, mv, unit, runFetched, decoded, runDecoded]

theorem step_of_device {s after : State} {m : Move} (legal : s.cfg.legal = true) (mv : s.move = m)
    (device : fetch m s.afterMove = .device after) : step s = .next after := by
  rw [step_of_legal legal, mv, device, runFetched]

theorem step_of_nothing {s : State} {m : Move} (legal : s.cfg.legal = true) (mv : s.move = m)
    (nothing : fetch m s.afterMove = .nothing) : step s = .next s.afterMove := by
  rw [step_of_legal legal, mv, nothing, runFetched]

/-! ## What each agent fetches -/

theorem fetchForeground_fgSend {s : State} {m : Msg} {k : Nat} (free : s.free) (phase : s.seq.isReception = true)
    (tx : s.fgTx = some ⟨m, k⟩) (hk : k < m.bytes.length) : fetchForeground s = .unit (.control .fgSend) [] := by
  cases hq : s.seq with
  | rxCmd1 | rxData | rxCmd2 => simp [fetchForeground, free, hq, tx, hk]
  | _ => simp [hq, Seq.isReception] at phase

/-- After the reception phases the phase alone names the foreground's operation (R92). -/
theorem fetchForeground_sequencer {s : State} (free : s.free) :
    (s.seq = .deciding → fetchForeground s = .unit (.control .decideBoot) [])
      ∧ (s.seq = .doArm → fetchForeground s = .unit (.control .arm) [])
      ∧ (s.seq = .doStart → fetchForeground s = .unit (.control .start) [])
      ∧ (s.seq = .waitRun → fetchForeground s = .unit (.control .waitRun) [])
      ∧ (s.seq = .waitIdle → fetchForeground s = .unit (.control .waitIdle) []) := by
  refine ⟨?_, ?_, ?_, ?_, ?_⟩ <;> intro phase <;> simp only [fetchForeground, if_pos free, phase]

/-- What the foreground fetches in LineDelimited mode: nothing, a byte to send, or a received byte. -/
theorem fetchForeground_line {s : State} (free : s.free) (phase : s.seq.isLine = true) :
    fetchForeground s = .nothing
      ∨ (∃ m k, s.fgTx = some ⟨m, k⟩ ∧ k < m.bytes.length ∧ fetchForeground s = .unit (.control .fgSend) [])
      ∨ (∃ b rest, s.fgTx = none ∧ s.rxq = b :: rest ∧ s.cmdLen.toNat ≤ cmdCap
          ∧ fetchForeground s = .unit (.lineByte (decide (s.cmdLen.toNat < cmdCap))) [b]) := by
  have hq : s.seq = .rxCmd1 ∨ s.seq = .rxCmd2 := by
    cases hs : s.seq <;> simp_all [Seq.isLine]
  cases tx : s.fgTx with
  | some x =>
    by_cases hk : x.k < x.msg.bytes.length
    · exact .inr (.inl ⟨x.msg, x.k, rfl, hk,
        fetchForeground_fgSend free (isLine_isReception phase) tx hk⟩)
    · left
      obtain hq | hq := hq <;> simp [fetchForeground, hq, tx, hk]
  | none =>
    cases rx : s.rxq with
    | nil =>
      left
      obtain hq | hq := hq <;> simp [fetchForeground, hq, tx, rx]
    | cons b rest =>
      by_cases hl : s.cmdLen.toNat ≤ cmdCap
      · refine .inr (.inr ⟨b, rest, rfl, rfl, hl, ?_⟩)
        obtain hq | hq := hq <;> simp [fetchForeground, free, hq, tx, rx, hl]
      · left
        obtain hq | hq := hq <;> simp [fetchForeground, hq, tx, rx, hl]

/-- What the foreground fetches in FixedLength mode: nothing, a byte to send, or a received byte. -/
theorem fetchForeground_raw {s : State} (free : s.free) (phase : s.seq = .rxData) :
    fetchForeground s = .nothing
      ∨ (∃ m k, s.fgTx = some ⟨m, k⟩ ∧ k < m.bytes.length ∧ fetchForeground s = .unit (.control .fgSend) [])
      ∨ (∃ b rest, s.fgTx = none ∧ s.rxq = b :: rest ∧ s.dataCnt.toNat < imageSize
          ∧ fetchForeground s = .unit (.rawByte (decide (s.dataCnt.toNat = imageSize - 1))) [b]) := by
  cases tx : s.fgTx with
  | some x =>
    by_cases hk : x.k < x.msg.bytes.length
    · exact .inr (.inl ⟨x.msg, x.k, rfl, hk, fetchForeground_fgSend free (by rw [phase]; rfl) tx hk⟩)
    · left
      simp [fetchForeground, phase, tx, hk]
  | none =>
    cases rx : s.rxq with
    | nil => exact .inl (by simp [fetchForeground, phase, tx, rx])
    | cons b rest =>
      by_cases hl : s.dataCnt.toNat < imageSize
      · exact .inr (.inr ⟨b, rest, rfl, rfl, hl, by simp [fetchForeground, free, phase, tx, rx, hl]⟩)
      · exact .inl (by simp [fetchForeground, phase, tx, rx, hl])

theorem fetchTimer_fire {s : State} (en : s.tmrEn = true) (ok : s.fault = .noFault) (abst : s.cfg.tickLevel = false) :
    fetchTimer s = .unit (.control .timerFire) [] := by
  simp [fetchTimer, en, ok, abst]

theorem fetchTimer_tick {s : State} (en : s.tmrEn = true) (ok : s.fault = .noFault) (ticks : s.cfg.tickLevel = true) :
    fetchTimer s = .device s.tick := by
  simp [fetchTimer, en, ok, ticks]

theorem fetchTimer_disabled {s : State} (en : s.tmrEn = false) : fetchTimer s = .nothing := by
  simp [fetchTimer, en]

theorem fetchHandler_dSend {s : State} (ch : Chan) (ok : s.fault = .noFault) (progress : s.handler ≠ none) :
    fetchHandler ch s = .unit (.control .dSend) [] := by
  obtain ⟨k, hk⟩ := Option.ne_none_iff_exists'.1 progress
  simp [fetchHandler, ok, hk]

theorem fetchHandler_dispatch {s : State} {ch : Chan} (free : s.free) (pend : s.tmrPend.get ch = true) :
    fetchHandler ch s = .unit (.control (.dispatch ch)) [] := by
  simp [fetchHandler, free, pend]

theorem fetchHandler_nothing {s : State} {ch : Chan} (free : s.free) (pend : s.tmrPend.get ch = false) :
    fetchHandler ch s = .nothing := by
  simp [fetchHandler, free, pend]

theorem fetchCondition_unit {s : State} (x : XportCond) (ok : s.fault = .noFault) :
    fetchCondition x s = .unit (.transport x) [] := if_pos ok

theorem fetchReset_device {s : State} (faulted : s.fault ≠ .noFault) (policy : s.cfg.platform.faultPolicy = .reset) :
    fetchReset s = .device s.platformReset := if_pos ⟨faulted, policy⟩

theorem fetchReset_halt {s : State} (policy : s.cfg.platform.faultPolicy = .halt) : fetchReset s = .nothing := by
  simp [fetchReset, policy]

/-! # The step as the decoded operation -/

/-- What a foreground move performs, by phase and by the message in progress. -/
theorem step_foreground {s : State} (legal : s.cfg.legal = true) (mv : s.move = .fg) (free : s.free) :
    (s.seq = .deciding → step s = exec .decideBoot s.afterMove)
      ∧ (s.seq = .doArm → step s = exec .arm s.afterMove)
      ∧ (s.seq = .doStart → step s = exec .start s.afterMove)
      ∧ (s.seq = .waitRun → step s = exec .waitRun s.afterMove)
      ∧ (s.seq = .waitIdle → step s = exec .waitIdle s.afterMove)
      ∧ (∀ m k, s.seq.isReception = true → s.fgTx = some ⟨m, k⟩ → k < m.bytes.length →
          step s = exec .fgSend s.afterMove) := by
  have free' := State.afterMove_free free
  obtain ⟨deciding, doArm, doStart, waitRun, waitIdle⟩ := fetchForeground_sequencer free'
  rw [State.afterMove_seq] at deciding doArm doStart waitRun waitIdle
  exact ⟨fun h => step_of_unit legal mv (deciding h) rfl, fun h => step_of_unit legal mv (doArm h) rfl,
    fun h => step_of_unit legal mv (doStart h) rfl, fun h => step_of_unit legal mv (waitRun h) rfl,
    fun h => step_of_unit legal mv (waitIdle h) rfl,
    fun m k phase tx hk => step_of_unit legal mv
      (fetchForeground_fgSend free' (by simpa using phase) (by simpa using tx) hk) rfl⟩

/-- What a timer move performs in the abstract model, and where the timer is off. -/
theorem step_timer {s : State} (legal : s.cfg.legal = true) (mv : s.move = .timer) (ok : s.fault = .noFault) :
    (s.tmrEn = true → s.cfg.tickLevel = false → step s = exec .timerFire s.afterMove)
      ∧ (s.tmrEn = false → step s = .next s.afterMove) :=
  ⟨fun en abst => step_of_unit legal mv
      (fetchTimer_fire (by simpa using en) (by simpa using ok) (by simpa using abst)) rfl,
    fun en => step_of_nothing legal mv (fetchTimer_disabled (by simpa using en))⟩

/-- What a move of the interrupt context performs. -/
theorem step_handler {s : State} {ch : Chan} (legal : s.cfg.legal = true) (mv : s.move = .isr ch)
    (ok : s.fault = .noFault) :
    (s.handler = none → s.tmrPend.get ch = true → step s = exec (.dispatch ch) s.afterMove)
      ∧ (s.handler = none → s.tmrPend.get ch = false → step s = .next s.afterMove)
      ∧ (s.handler ≠ none → step s = exec .dSend s.afterMove) :=
  ⟨fun idle pend => step_of_unit legal mv
      (fetchHandler_dispatch (State.afterMove_free ⟨ok, idle⟩) (by simpa using pend)) rfl,
    fun idle pend => step_of_nothing legal mv
      (fetchHandler_nothing (State.afterMove_free ⟨ok, idle⟩) (by simpa using pend)),
    fun progress => step_of_unit legal mv
      (fetchHandler_dSend ch (by simpa using ok) (by simpa using progress)) rfl⟩

/-- What the two transport conditions perform. -/
theorem step_condition {s : State} (legal : s.cfg.legal = true) (ok : s.fault = .noFault) :
    (s.move = .framing → step s = exec .faultFraming s.afterMove)
      ∧ (s.move = .fifo → step s = exec .faultFifo s.afterMove) := by
  have ok' : s.afterMove.fault = .noFault := by simpa using ok
  exact ⟨fun mv => step_of_unit legal mv (fetchCondition_unit _ ok') rfl,
    fun mv => step_of_unit legal mv (fetchCondition_unit _ ok') rfl⟩

/-- Settles O38: each agent's clause is the step lemma of that agent. -/
theorem stepRunsTheDecodedOperation : Obligations.StepRunsTheDecodedOperation :=
  fun _ legal => ⟨fun _ _ _ _ unit decoded => step_of_unit legal rfl unit decoded, step_of_nothing legal rfl,
    step_foreground legal, step_timer legal, fun _ => step_handler legal, step_condition legal⟩

/-- A terminal count outside `1..IMAGE_SIZE` is not legal (R8, D23). -/
theorem Params.legal_eq_false {p : Params} (h : p.terminalCount = 0 ∨ imageSize < p.terminalCount) :
    p.legal = false := by
  simp only [Params.legal, Bool.and_eq_false_iff, decide_eq_false_iff_not]
  omega

/-- Settles O39: such a configuration is not legal, and step tests that first. -/
theorem illegalTerminalCountIsRefused : Obligations.IllegalTerminalCountIsRefused :=
  fun _ h => step_of_illegal (Params.legal_eq_false h)

/-! # Reset -/

theorem Level.flip_ne (l : Level) : l.flip ≠ l := by cases l <;> decide

/-- The lines as reset leaves them (R39, R251): each at the level that does not assert it. -/
theorem deassertedLines_levels (p : Platform) :
    (deassertedLines p).data = .low ∧ (deassertedLines p).clock = .high
      ∧ (deassertedLines p).latch ≠ p.latchActive ∧ (deassertedLines p).finish ≠ p.finishActive :=
  ⟨rfl, rfl, Level.flip_ne _, Level.flip_ne _⟩

theorem Platform.one_le_rxCap (p : Platform) : 1 ≤ p.rxCap := Nat.le_add_left 1 _

theorem Platform.one_le_txCap (p : Platform) : 1 ≤ p.txCap := Nat.le_add_left 1 _

/-- Reset clears the registers of every channel (R251). -/
theorem State.resetWith_channel (cfg : Params) (ch : Chan) :
    (State.resetWith cfg).tmrCC.get ch = 0 ∧ (State.resetWith cfg).tmrClr.get ch = false
      ∧ (State.resetWith cfg).tmrPend.get ch = false := by
  cases ch <;> exact ⟨rfl, rfl, rfl⟩

/-- Settles O48: registers by the reset state's definition, lines and parameters by the lemmas on every platform. -/
theorem resetLeavesTheStatedValues : Obligations.ResetLeavesTheStatedValues := by
  obtain ⟨data, clock, latch, finish⟩ := deassertedLines_levels Config.platform
  exact ⟨rfl, rfl, rfl, rfl, rfl, rfl, rfl, rfl, rfl, rfl, rfl, rfl, rfl, State.resetWith_channel _,
    data, clock, latch, finish, rfl, rfl, rfl, rfl, Platform.one_le_rxCap _, Platform.one_le_txCap _,
    Platform.timing_bounds _⟩

/-- The platform's reset, after its move is taken. -/
theorem State.platformReset_afterMove (s : State) :
    s.afterMove.platformReset = { State.resetWith s.cfg with
      history := s.history, agenda := s.afterMove.agenda, draws := s.afterMove.draws, resets := s.resets + 1 } := by
  simp only [State.platformReset, State.afterMove_cfg, State.afterMove_history, State.afterMove_resets]

/-- Settles O49: the reset move fetches the platform's reset under RESET, and nothing under HALT. -/
theorem platformResetBeginsANewRun : Obligations.PlatformResetBeginsANewRun := by
  intro s legal mv faulted
  rw [← State.platformReset_afterMove]
  exact ⟨fun policy => step_of_device legal mv
      (fetchReset_device (by simpa using faulted) (by simpa using policy)),
    fun policy => step_of_nothing legal mv (fetchReset_halt (by simpa using policy))⟩

end Sys2Proof.Machine

namespace Sys2Proof.Machine

/-! # The timer's registers stay within TIMER_BITS -/

theorem TimerWidthInv_congr {s t : State} (cfg : t.cfg = s.cfg) (cc : t.tmrCC = s.tmrCC)
    (period : t.tmrPeriod = s.tmrPeriod) (count : t.tmrCount = s.tmrCount) (h : TimerWidthInv s) : TimerWidthInv t := by
  rw [TimerWidthInv, cfg, cc, period, count]
  exact h

theorem State.timerValue_lt (s : State) (v : Nat) : s.timerValue v < 2 ^ s.cfg.platform.timerBits := ticksHeld_lt

/-- `arm()` (R133) writes TMR_PERIOD and every TMR_CC through the width's rule, and leaves the counter. -/
theorem State.armTimer_keeps_TimerWidthInv {s : State} (h : TimerWidthInv s) : TimerWidthInv s.armTimer := by
  obtain ⟨-, -, count⟩ := h
  refine ⟨fun ch => ?_, ?_, ?_⟩
  · rw [State.armTimer_tmrCC, State.armTimer_cfg]
    cases ch <;> exact s.timerValue_lt _
  · rw [State.armTimer_tmrPeriod, State.armTimer_cfg]
    exact s.timerValue_lt _
  · simpa using count

theorem State.tickChannel_tmrCount_le (s : State) (ch : Chan) : (s.tickChannel ch).tmrCount ≤ s.tmrCount := by
  rw [State.tickChannel_tmrCount]
  split
  · exact Nat.zero_le _
  · exact Nat.le_refl _

/-- A tick counts modulo the counter's width, and a channel's reset only lowers the count (R214). -/
theorem State.tick_tmrCount_lt (s : State) : s.tick.tmrCount < 2 ^ s.cfg.platform.timerBits := by
  have counted : (s.tmrCount + 1) % 2 ^ s.cfg.platform.timerBits < 2 ^ s.cfg.platform.timerBits :=
    Nat.mod_lt _ (Nat.two_pow_pos _)
  refine Nat.lt_of_le_of_lt ?_ counted
  unfold State.tick
  exact Nat.le_trans (State.tickChannel_tmrCount_le _ _) (Nat.le_trans (State.tickChannel_tmrCount_le _ _)
    (Nat.le_trans (State.tickChannel_tmrCount_le _ _) (State.tickChannel_tmrCount_le _ _)))

theorem State.tick_keeps_TimerWidthInv {s : State} (h : TimerWidthInv s) : TimerWidthInv s.tick := by
  obtain ⟨cc, period, -⟩ := h
  exact ⟨by simpa using cc, by simpa using period, by simpa using s.tick_tmrCount_lt⟩

theorem State.resetWith_TimerWidthInv (cfg : Params) : TimerWidthInv (State.resetWith cfg) := by
  have pos : 0 < 2 ^ cfg.platform.timerBits := Nat.two_pow_pos _
  exact ⟨fun ch => by rw [(State.resetWith_channel cfg ch).1]; exact pos, pos, pos⟩

theorem StepCase.keeps_TimerWidthInv {s t : State} {m : Move} (h : StepCase s m t) (inv : TimerWidthInv s) :
    TimerWidthInv t := by
  cases h with
  | arm => exact TimerWidthInv_congr rfl rfl rfl rfl (State.armTimer_keeps_TimerWidthInv inv)
  | tick => exact State.tick_keeps_TimerWidthInv inv
  | reset => exact TimerWidthInv_congr rfl rfl rfl rfl (State.resetWith_TimerWidthInv s.cfg)
  | _ => exact TimerWidthInv_congr (by simp) (by simp) (by simp) (by simp) inv

/-- Settles O53: only ARM, a tick and the platform's reset write these registers, and each within the width. -/
theorem stepKeepsTimerWidths : Obligations.StepKeepsTimerWidths := by
  intro s t inv h
  obtain ⟨-, change⟩ := step_cases h
  exact change.keeps_TimerWidthInv (TimerWidthInv_congr (by simp) (by simp) (by simp) (by simp) inv)

/-! # No step stops in the sequence -/

theorem SequenceInv.afterMove {s : State} (inv : SequenceInv s) : SequenceInv s.afterMove := by
  obtain ⟨faulted, idle, armed, started, enabled, handling, sending, pending⟩ := inv
  constructor <;> simpa [State.noPending]

/-- What was fetched answers a next state. -/
def Answers (s : State) (f : Fetched) : Prop := ∃ t, runFetched s f = .next t

theorem answers_nothing (s : State) : Answers s .nothing := ⟨s, rfl⟩

theorem answers_device (s after : State) : Answers s (.device after) := ⟨after, rfl⟩

/-- FG_SEND with room sends the message's next byte (R109). -/
theorem execFgSend_room {s : State} {m : Msg} {k : Nat} (free : s.free) (phase : s.seq.isReception = true)
    (tx : s.fgTx = some ⟨m, k⟩) (hk : k < m.bytes.length) (room : s.txRoom) :
    execFgSend s = .next ((s.txByte m.bytes[k]).sentByte m k) := by
  have byte : m.bytes[k]? = some m.bytes[k] := List.getElem?_eq_getElem hk
  simp [execFgSend, tx, free, phase, byte, room]

/-- FG_SEND with a byte of the message left sends it, or waits for room. -/
theorem execFgSend_answers {s : State} {m : Msg} {k : Nat} (free : s.free) (phase : s.seq.isReception = true)
    (tx : s.fgTx = some ⟨m, k⟩) (hk : k < m.bytes.length) : ∃ t, execFgSend s = .next t := by
  by_cases room : s.txRoom
  · exact ⟨_, execFgSend_room free phase tx hk room⟩
  · have byte : m.bytes[k]? = some m.bytes[k] := List.getElem?_eq_getElem hk
    exact ⟨s, by simp [execFgSend, tx, free, phase, byte, room]⟩

theorem execDSend_answers {s : State} (ok : s.fault = .noFault) (progress : s.handler ≠ none) :
    ∃ t, execDSend s = .next t := by
  obtain ⟨k, hk⟩ := Option.ne_none_iff_exists'.1 progress
  unfold execDSend
  simp only [hk, ok]
  cases bootloadSuccess[k.val]? with
  | none => exact ⟨_, rfl⟩
  | some b => by_cases room : s.txRoom <;> exact ⟨_, by simp only [room]; rfl⟩

/-- A byte received in LineDelimited mode is appended, ends its line, or overruns a full buffer (R101, R102, R111). -/
theorem lineByte_answers {s : State} {b : Byte} {rest : List Byte} (ready : s.lineReady) (head : s.rxq = b :: rest)
    (bound : s.cmdLen.toNat ≤ cmdCap) : Answers s (.unit (.lineByte (decide (s.cmdLen.toNat < cmdCap))) [b]) := by
  have head' : s.rxq.head? = some b := by rw [head, List.head?_cons]
  by_cases room : s.cmdLen.toNat < cmdCap
  · by_cases hb : b = newline
    · subst hb
      simp only [Answers, runFetched, decode, room, decide_true, ite_true, runDecoded]
      exact ⟨_, if_pos ⟨ready, head', room⟩⟩
    · simp only [Answers, runFetched, decode, room, decide_true, ite_true, hb, ite_false, runDecoded]
      exact ⟨_, if_pos ⟨ready, head', hb, room⟩⟩
  · simp only [Answers, runFetched, decode, room, decide_false, Bool.false_eq_true, ite_false, runDecoded]
    exact ⟨_, if_pos ⟨ready, head', Nat.le_antisymm bound (Nat.not_lt.1 room)⟩⟩

/-- A byte received in FixedLength mode is stored, as the last one or as one before it (R107, R108). -/
theorem rawByte_answers {s : State} {b : Byte} {rest : List Byte} (ready : s.rawReady) (head : s.rxq = b :: rest)
    (bound : s.dataCnt.toNat < imageSize) :
    Answers s (.unit (.rawByte (decide (s.dataCnt.toNat = imageSize - 1))) [b]) := by
  have head' : s.rxq.head? = some b := by rw [head, List.head?_cons]
  by_cases last : s.dataCnt.toNat = imageSize - 1
  · simp only [Answers, runFetched, decode, last, decide_true, ite_true, runDecoded]
    exact ⟨_, if_pos ⟨ready, head', last⟩⟩
  · simp only [Answers, runFetched, decode, last, decide_false, Bool.false_eq_true, ite_false, runDecoded]
    exact ⟨_, if_pos ⟨ready, head', by omega⟩⟩

theorem fetchForeground_line_answers {s : State} (free : s.free) (phase : s.seq.isLine = true) :
    Answers s (fetchForeground s) := by
  obtain h | ⟨m, k, tx, hk, h⟩ | ⟨b, rest, tx, head, bound, h⟩ := fetchForeground_line free phase <;> rw [h]
  · exact answers_nothing s
  · exact execFgSend_answers free (isLine_isReception phase) tx hk
  · exact lineByte_answers ⟨free, phase, tx⟩ head bound

theorem fetchForeground_raw_answers {s : State} (free : s.free) (phase : s.seq = .rxData) :
    Answers s (fetchForeground s) := by
  obtain h | ⟨m, k, tx, hk, h⟩ | ⟨b, rest, tx, head, bound, h⟩ := fetchForeground_raw free phase <;> rw [h]
  · exact answers_nothing s
  · exact execFgSend_answers free (by rw [phase]; rfl) tx hk
  · exact rawByte_answers ⟨free, phase, tx⟩ head bound

/-- The foreground's step answers: the sequence's invariant gives ARM and START the SER_STATE they need (R138). -/
theorem fetchForeground_answers {s : State} (inv : SequenceInv s) : Answers s (fetchForeground s) := by
  by_cases free : s.free
  · obtain ⟨deciding, doArm, doStart, waitRun, waitIdle⟩ := fetchForeground_sequencer free
    cases phase : s.seq with
    | rxCmd1 => exact fetchForeground_line_answers free (by rw [phase]; rfl)
    | rxData => exact fetchForeground_raw_answers free phase
    | rxCmd2 => exact fetchForeground_line_answers free (by rw [phase]; rfl)
    | deciding => rw [deciding phase]; exact ⟨_, if_pos ⟨free, phase⟩⟩
    | doArm =>
      have ser : s.serState = .idle := inv.idle (.inr (.inr (.inl phase)))
      rw [doArm phase]
      exact ⟨_, (if_pos ⟨phase, ser⟩).trans (if_pos free)⟩
    | doStart =>
      rw [doStart phase]
      exact ⟨_, (if_pos ⟨phase, inv.armed phase⟩).trans (if_pos free)⟩
    | waitRun => rw [waitRun phase]; exact ⟨_, if_pos ⟨free, phase⟩⟩
    | waitIdle => rw [waitIdle phase]; exact ⟨_, if_pos ⟨free, phase⟩⟩
    | faulted => exact absurd free.1 (inv.faulted.1 phase)
  · rw [fetchForeground, if_neg free]
    exact answers_nothing s

theorem fetchTimer_answers (s : State) : Answers s (fetchTimer s) := by
  unfold fetchTimer
  split
  · next on =>
    split
    · exact answers_device s _
    · exact ⟨_, if_pos on⟩
  · exact answers_nothing s

theorem fetchHandler_answers (ch : Chan) (s : State) : Answers s (fetchHandler ch s) := by
  by_cases ok : s.fault = .noFault
  · by_cases idle : s.handler = none
    · cases pend : s.tmrPend.get ch with
      | true => rw [fetchHandler_dispatch ⟨ok, idle⟩ pend]; exact ⟨_, if_pos ⟨⟨ok, idle⟩, pend⟩⟩
      | false => rw [fetchHandler_nothing ⟨ok, idle⟩ pend]; exact answers_nothing s
    · rw [fetchHandler_dSend ch ok idle]
      exact execDSend_answers ok idle
  · rw [fetchHandler, if_neg ok]
    exact answers_nothing s

theorem fetchPush_answers (b : Byte) (s : State) : Answers s (fetchPush b s) := by
  unfold fetchPush
  split
  · next ok =>
    split
    · exact answers_device s _
    · next full => exact ⟨_, if_pos ⟨ok, full⟩⟩
  · exact answers_nothing s

theorem fetchPull_answers (s : State) : Answers s (fetchPull s) := by
  unfold fetchPull
  split
  · exact answers_nothing s
  · exact answers_device s _

theorem fetchCondition_answers {x : XportCond} (hx : x ≠ .rxOverrun) (s : State) :
    Answers s (fetchCondition x s) := by
  by_cases ok : s.fault = .noFault
  · rw [fetchCondition_unit x ok]
    cases x with
    | framing => exact ⟨_, if_pos ok⟩
    | fifo => exact ⟨_, if_pos ok⟩
    | rxOverrun => exact absurd rfl hx
  · rw [fetchCondition, if_neg ok]
    exact answers_nothing s

theorem fetchReset_answers (s : State) : Answers s (fetchReset s) := by
  unfold fetchReset
  split
  · exact answers_device s _
  · exact answers_nothing s

/-- Whatever the move, what it fetches answers a next state. -/
theorem fetch_answers (m : Move) {s : State} (inv : SequenceInv s) : Answers s (fetch m s) := by
  cases m with
  | fg => exact fetchForeground_answers inv
  | timer => exact fetchTimer_answers s
  | isr ch => exact fetchHandler_answers ch s
  | push b => exact fetchPush_answers b s
  | pull => exact fetchPull_answers s
  | framing => exact fetchCondition_answers (by decide) s
  | fifo => exact fetchCondition_answers (by decide) s
  | reset => exact fetchReset_answers s

/-- Settles O55: taking the move keeps the invariant, under which whatever is fetched answers. -/
theorem noStepStopsInSequence : Obligations.NoStepStopsInSequence := by
  intro s inv legal
  obtain ⟨t, ht⟩ := fetch_answers s.move inv.afterMove
  exact ⟨t, (step_of_legal legal).trans ht⟩

end Sys2Proof.Machine

namespace Sys2Proof.Machine

/-! # A reply, byte by byte -/

/-- A foreground move with a message in progress and room in TXQ hands over the message's next byte (R109). -/
theorem step_sends {s : State} {m : Msg} {k : Nat} {rest : List Move} (legal : s.cfg.legal = true) (free : s.free)
    (phase : s.seq.isReception = true) (tx : s.fgTx = some ⟨m, k⟩) (hk : k < m.bytes.length) (room : s.txRoom)
    (agenda : s.agenda = .fg :: rest) :
    step s = .next (({ s with agenda := rest }.txByte m.bytes[k]).sentByte m k) := by
  have mv : s.move = .fg := by simp only [State.move, agenda]
  have taken : s.afterMove = { s with agenda := rest } := by simp only [State.afterMove, agenda]
  obtain ⟨-, -, -, -, -, sends⟩ := step_foreground legal mv free
  rw [sends m k phase tx hk, taken]
  exact execFgSend_room (s := { s with agenda := rest }) free phase tx hk room

theorem Core.run_succ_of_step {s t : State} (n : Nat) (h : step s = .next t) :
    Host.Core.run core (n + 1) s = Host.Core.run core n t := by
  have h' : core.step s = .next t := h
  simp only [Host.Core.run, h']

/-- From byte `k` of a message with `n + 1` bytes left and room for them, as many foreground moves send the rest of it. -/
theorem run_sends_rest {m : Msg} {rest : List Move} (n : Nat) :
    ∀ {s : State} {k : Nat}, s.cfg.legal = true → s.free → s.seq.isReception = true → s.fgTx = some ⟨m, k⟩ →
      k + (n + 1) = m.bytes.length → s.txq.length + (n + 1) ≤ s.cfg.platform.txCap →
      s.agenda = List.replicate (n + 1) .fg ++ rest →
      Host.Core.run core (n + 1) s =
        .next { s with txq := s.txq ++ m.bytes.drop k, fgTx := none, seq := nextPhase s.seq, agenda := rest } := by
  induction n with
  | zero =>
    intro s k legal free phase tx len room agenda
    have hk : k < m.bytes.length := by omega
    rw [Core.run_succ_of_step 0 (step_sends legal free phase tx hk room agenda), State.sentByte, if_pos len,
      List.drop_eq_getElem_cons hk, List.drop_eq_nil_of_le (by omega)]
    rfl
  | succ n ih =>
    intro s k legal free phase tx len room agenda
    have hk : k < m.bytes.length := by omega
    have more : k + 1 ≠ m.bytes.length := by omega
    have hroom : s.txRoom := Nat.lt_of_lt_of_le (by omega) room
    have sent := step_sends legal free phase tx hk hroom agenda
    rw [State.sentByte, if_neg more] at sent
    have room' : (s.txq ++ [m.bytes[k]]).length + (n + 1) ≤ s.cfg.platform.txCap := by
      rw [List.length_append, List.length_singleton]
      omega
    rw [Core.run_succ_of_step (n + 1) sent, List.drop_eq_getElem_cons hk, List.append_cons]
    exact ih (k := k + 1) legal free phase rfl (by omega) room' rfl

theorem Msg.bytes_length_pos (m : Msg) : 0 < m.bytes.length := by cases m <;> decide

/-- Settles O13: the text is the message's bytes, sent from its first byte on. -/
theorem replyIsSentWholeAndInOrder : Obligations.ReplyIsSentWholeAndInOrder := by
  intro s m text rest htext legal free phase tx room agenda
  have whole : text = m.bytes := by rw [htext]; cases m <;> rfl
  subst whole
  obtain ⟨n, hn⟩ := Nat.exists_eq_succ_of_ne_zero (Nat.ne_of_gt m.bytes_length_pos)
  rw [hn] at room agenda ⊢
  exact run_sends_rest n legal free phase tx (by omega) room agenda

/-! # The tick, with the channels as ARM leaves them -/

theorem PerChan.ext_get {α : Type} {v w : PerChan α} (h : ∀ ch, v.get ch = w.get ch) : v = w := by
  obtain ⟨a, b, c, d⟩ := v
  obtain ⟨a', b', c', d'⟩ := w
  obtain rfl : a = a' := h .chA
  obtain rfl : b = b' := h .chB
  obtain rfl : c = c' := h .chC
  obtain rfl : d = d' := h .chD
  rfl

/-- The timer's registers as ARM leaves them (R133), with the counter inside the period (R214). -/
structure State.ChannelsArmed (s : State) : Prop where
  cc : s.tmrCC = ⟨s.cfg.platform.t1, s.cfg.platform.t2, s.cfg.platform.t3, s.cfg.platform.t4⟩
  clr : s.tmrClr = ⟨false, false, false, true⟩
  inPeriod : s.tmrCount < s.cfg.platform.t4

/-- Every offset lies within the period. -/
theorem State.ChannelsArmed.offset_bounds {s : State} (h : s.ChannelsArmed) (ch : Chan) :
    0 < s.tmrCC.get ch ∧ s.tmrCC.get ch ≤ s.cfg.platform.t4 := by
  obtain ⟨h1, h2, h3, h4, -⟩ := s.cfg.platform.timing_bounds
  rw [h.cc]
  cases ch <;> simp only [PerChan.get] <;> omega

theorem State.tickChannel_tmrPend_get (s : State) (ch ch' : Chan) :
    (s.tickChannel ch).tmrPend.get ch' = true ↔
      s.tmrPend.get ch' = true ∨ (ch' = ch ∧ s.tmrCount = s.tmrCC.get ch) := by
  rw [State.tickChannel_tmrPend]
  by_cases reached : s.tmrCount = s.tmrCC.get ch <;> by_cases same : ch' = ch <;>
    simp [reached, same, PerChan.get_set]

/-- In the period the counter does not reach its width, so a tick compares the next count. -/
theorem State.ChannelsArmed.counted {s : State} (h : s.ChannelsArmed) :
    (s.tmrCount + 1) % 2 ^ s.cfg.platform.timerBits = s.tmrCount + 1 := by
  obtain ⟨-, -, -, -, width⟩ := s.cfg.platform.timing_bounds
  have := h.inPeriod
  exact Nat.mod_eq_of_lt (by omega)

theorem State.ChannelsArmed.tick_tmrCount {s : State} (h : s.ChannelsArmed) :
    s.tick.tmrCount = (s.tmrCount + 1) % s.cfg.platform.t4 := by
  have counted := h.counted
  have inPeriod := h.inPeriod
  simp only [State.tick, State.tickChannel_tmrCount, State.tickChannel_tmrCC, State.tickChannel_tmrClr, h.clr, h.cc,
    PerChan.get, counted]
  by_cases last : s.tmrCount + 1 = s.cfg.platform.t4
  · simp [last]
  · simp [last, Nat.mod_eq_of_lt (show s.tmrCount + 1 < s.cfg.platform.t4 by omega)]

theorem State.ChannelsArmed.tick_tmrPend {s : State} (h : s.ChannelsArmed) (ch : Chan) :
    s.tick.tmrPend.get ch = (s.tmrPend.get ch || decide (s.tmrCount + 1 = s.tmrCC.get ch)) := by
  have counted := h.counted
  rw [Bool.eq_iff_iff, Bool.or_eq_true, decide_eq_true_iff]
  simp only [State.tick, State.tickChannel_tmrPend_get, State.tickChannel_tmrCount, State.tickChannel_tmrCC,
    State.tickChannel_tmrClr, h.clr, counted]
  cases ch <;> simp [PerChan.get]

theorem State.ChannelsArmed.tick_ticksSince {s : State} (h : s.ChannelsArmed) (ch : Chan) :
    s.tick.ticksSince ch = (s.ticksSince ch + 1) % s.cfg.platform.t4 := by
  obtain ⟨-, le⟩ := h.offset_bounds ch
  simp only [State.ticksSince, State.tick_cfg, State.tick_tmrCC, h.tick_tmrCount, Nat.add_sub_assoc le]
  rw [Nat.mod_add_mod, Nat.mod_add_mod, Nat.add_right_comm]

/-- The counter stands at a channel's offset, modulo the period, exactly where the tick reached that offset. -/
theorem State.ChannelsArmed.tick_ticksSince_eq_zero {s : State} (h : s.ChannelsArmed) (ch : Chan) :
    s.tick.ticksSince ch = 0 ↔ s.tmrCount + 1 = s.tmrCC.get ch := by
  obtain ⟨pos, le⟩ := h.offset_bounds ch
  have inPeriod := h.inPeriod
  rw [h.tick_ticksSince, State.ticksSince, Nat.mod_add_mod, ← Nat.dvd_iff_mod_eq_zero]
  constructor
  · intro whole
    have := Nat.eq_of_dvd_of_lt_two_mul (by omega) whole (by omega)
    omega
  · intro reached
    exact ⟨1, by omega⟩

/-! ## H-DEADLINE in ticks -/

theorem PerChan.eq_allFalse_iff (v : PerChan Bool) :
    v = ⟨false, false, false, false⟩ ↔ ∀ ch, v.get ch = false := by
  constructor
  · rintro rfl ch
    cases ch <;> rfl
  · intro h
    refine PerChan.ext_get fun ch => ?_
    rw [h ch]
    cases ch <;> rfl

/-- The channels that the next tick fires are those whose offset it reaches. -/
theorem State.ChannelsArmed.nextFirings_get {s : State} (h : s.ChannelsArmed) (ticks : s.cfg.tickLevel = true)
    (ch : Chan) : s.nextFirings.get ch = decide (s.tmrCount + 1 = s.tmrCC.get ch) := by
  have cleared : { s with tmrPend := ⟨false, false, false, false⟩ }.ChannelsArmed := ⟨h.cc, h.clr, h.inPeriod⟩
  rw [State.nextFirings, if_pos ticks, cleared.tick_tmrPend, (PerChan.eq_allFalse_iff _).1 rfl, Bool.false_or]

/-- While an event is pending H-DEADLINE lets no tick reach an offset. -/
theorem HDeadline.not_reached {s : State} (h : HDeadline s) (armed : s.ChannelsArmed) (ticks : s.cfg.tickLevel = true)
    (mv : s.timerMoves) (run : s.serState = .running) (idle : s.handler = none) (pending : ¬ s.noPending)
    (ch : Chan) : s.tmrCount + 1 ≠ s.tmrCC.get ch := by
  have none_fires : s.nextFirings = ⟨false, false, false, false⟩ :=
    Decidable.byContradiction fun fires => pending (h.beforeNext mv run idle fires)
  have := (PerChan.eq_allFalse_iff _).1 none_fires ch
  rw [armed.nextFirings_get ticks] at this
  exact of_decide_eq_false this

/-! ## The timer's move -/

theorem State.ChannelsArmed.afterMove {s : State} (h : s.ChannelsArmed) : s.afterMove.ChannelsArmed :=
  ⟨by simpa using h.cc, by simpa using h.clr, by simpa using h.inPeriod⟩

@[simp] theorem State.afterMove_ticksSince (s : State) (ch : Chan) : s.afterMove.ticksSince ch = s.ticksSince ch := by
  simp only [State.ticksSince, State.afterMove_tmrCount, State.afterMove_tmrCC, State.afterMove_cfg]

/-- What the timer's move leaves for each channel, told by the registers before the move. -/
theorem State.ChannelsArmed.afterMove_tick_channel {s : State} (h : s.ChannelsArmed) (ch : Chan) :
    s.afterMove.tick.tmrPend.get ch = (s.tmrPend.get ch || decide (s.tmrCount + 1 = s.tmrCC.get ch))
      ∧ (s.afterMove.tick.ticksSince ch = 0 ↔ s.tmrCount + 1 = s.tmrCC.get ch)
      ∧ s.afterMove.tick.ticksSince ch = (s.ticksSince ch + 1) % s.cfg.platform.t4 :=
  ⟨by simpa using h.afterMove.tick_tmrPend ch, by simpa using h.afterMove.tick_ticksSince_eq_zero ch,
    by simpa using h.afterMove.tick_ticksSince ch⟩

/-- Under H-DEADLINE a tick that comes while an event is pending fires none, and within G ticks of the pending one. -/
theorem HDeadline.afterMove_tick {s : State} (h : HDeadline s) (armed : s.ChannelsArmed)
    (ticks : s.cfg.tickLevel = true) (mv : s.timerMoves) (run : s.serState = .running) (idle : s.handler = none)
    (pending : ¬ s.noPending) :
    s.afterMove.tick.tmrPend = s.tmrPend
      ∧ ∀ ch, s.tmrPend.get ch = true → ¬ (ch = .chD ∧ s.atTerminal) →
          s.afterMove.tick.ticksSince ch ≤ deadlineTicks s.cfg.platform := by
  refine ⟨PerChan.ext_get fun ch => ?_, fun ch pend notLast => ?_⟩
  · obtain ⟨pend, -, -⟩ := armed.afterMove_tick_channel ch
    rw [pend, decide_eq_false (h.not_reached armed ticks mv run idle pending ch), Bool.or_false]
  · obtain ⟨-, -, since⟩ := armed.afterMove_tick_channel ch
    rw [since]
    exact Nat.le_trans (Nat.mod_le _ _) (h.withinG mv run idle ticks ch pend notLast)

/-- Settles O33: the timer's move is one tick, and the laws of the armed channels say what it leaves. -/
theorem tickCountsModuloThePeriod : Obligations.TickCountsModuloThePeriod := by
  intro s legal ticks mv en ok cc clr inPeriod
  have armed : s.ChannelsArmed := ⟨cc, clr, inPeriod⟩
  have moves : step s = .next s.afterMove.tick :=
    step_of_device legal mv (fetchTimer_tick (by simpa using en) (by simpa using ok) (by simpa using ticks))
  exact ⟨s.afterMove.tick, moves, s.afterMove.tick_frame, by simpa using armed.afterMove.tick_tmrCount,
    armed.afterMove_tick_channel,
    fun deadline run idle pending => deadline.afterMove_tick armed ticks ⟨mv, en, ok⟩ run idle pending⟩

end Sys2Proof.Machine

namespace Sys2Proof.Machine

/-! # The state's invariants at reset -/

theorem State.resetWith_MemoryInv (cfg : Params) : MemoryInv (State.resetWith cfg) := ⟨rfl, rfl, rfl, rfl⟩

theorem State.resetWith_RangeInv (cfg : Params) : RangeInv (State.resetWith cfg) where
  cmdLen := Nat.zero_le _
  dataCnt := Nat.zero_le _
  fgTx _ sending := nomatch sending
  rxq := Nat.zero_le _
  txq := Nat.zero_le _

theorem State.resetWith_SequenceInv (cfg : Params) : SequenceInv (State.resetWith cfg) where
  faulted := ⟨(nomatch ·), (absurd rfl ·)⟩
  idle _ := rfl
  armed h := nomatch h
  started h := nomatch h
  enabled h := nomatch h
  handling h := absurd rfl h
  sending h := absurd rfl h
  pending _ _ := rfl

/-- At reset the cursor is (0, 0) and nothing moves it before ARM. -/
theorem State.resetWith_CursorInv (cfg : Params) : CursorInv (State.resetWith cfg) where
  bound := Nat.zero_le _
  atEnd _ := rfl
  before _ := ⟨rfl, rfl⟩
  armed h := nomatch h
  running _ h := nomatch h
  handling h := absurd rfl h

theorem State.resetWith_PopulatedInv (cfg : Params) : PopulatedInv (State.resetWith cfg) where
  written _ h := absurd h (Nat.not_lt_zero _)
  full h := nomatch h

/-- Settles O50: each invariant holds of the reset state of every configuration; 64 is a legal terminal count. -/
theorem resetMeetsTheInvariants : Obligations.ResetMeetsTheInvariants :=
  ⟨State.resetWith_MemoryInv _, State.resetWith_RangeInv _, State.resetWith_SequenceInv _,
    State.resetWith_TimerWidthInv _, State.resetWith_CursorInv _, State.resetWith_PopulatedInv _, rfl⟩

/-! # The byte spaces -/

theorem StepCase.keeps_MemoryInv {s t : State} {m : Move} (h : StepCase s m t) (inv : MemoryInv s) : MemoryInv t := by
  cases h with
  | lineAppend b rest ready head hb room =>
    exact MemoryInv_congr rfl rfl (State.writeCmd_keeps_MemoryInv (s := s.popRx) b room inv)
  | lineEnd rest ready head room =>
    exact MemoryInv_congr (by simp) (by simp) (State.writeCmd_keeps_MemoryInv (s := s.popRx) newline room inv)
  | dataByte b rest ready head room =>
    exact MemoryInv_congr rfl rfl (State.writeImage_keeps_MemoryInv (s := s.popRx) b (Nat.lt_of_lt_pred room) inv)
  | dataLast b rest ready head last =>
    exact MemoryInv_congr rfl rfl (State.writeImage_keeps_MemoryInv (s := s.popRx) b (by decide) inv)
  | reset => exact State.resetWith_MemoryInv s.cfg
  | _ => exact MemoryInv_congr (by simp) (by simp) inv

/-- Settles O51: a received byte is stored inside its space's range, the platform's reset empties both spaces, and no
other step writes them. -/
theorem stepKeepsMemoryCanonical : Obligations.StepKeepsMemoryCanonical := by
  intro s t inv h
  obtain ⟨-, change⟩ := step_cases h
  exact change.keeps_MemoryInv (MemoryInv_congr (by simp) (by simp) inv)

theorem Memory.read_eq_none_of_lt {m : Memory} {lo a : Nat} (rises : Memory.risesFrom lo m = true) (ha : a < lo) :
    Memory.read m a = none := by
  induction m generalizing lo with
  | nil => rfl
  | cons c rest ih =>
    obtain ⟨k, x⟩ := c
    simp only [Memory.risesFrom, Bool.and_eq_true, decide_eq_true_eq] at rises
    obtain ⟨lo_le, rises⟩ := rises
    rw [Memory.read, if_neg (by omega)]
    exact ih rises (by omega)

/-- The least index that a rising space lists is the least at which it reads a written byte, so spaces that read alike list
the same least index. -/
theorem Memory.head_le_of_read_eq {k k' : Nat} {x x' : Byte} {rest rest' : Memory}
    (rises' : Memory.risesFrom (k' + 1) rest' = true)
    (alike : ∀ a, Memory.read ((k, x) :: rest) a = Memory.read ((k', x') :: rest') a) : k' ≤ k := by
  refine Nat.le_of_not_lt fun below => ?_
  have unread : Memory.read ((k', x') :: rest') k = none := by
    rw [Memory.read, if_neg (by omega)]
    exact Memory.read_eq_none_of_lt rises' (by omega)
  have read : Memory.read ((k, x) :: rest) k = some x := if_pos rfl
  exact nomatch read.symm.trans ((alike k).trans unread)

theorem Memory.eq_of_risesFrom {m m' : Memory} {lo lo' : Nat} (rises : Memory.risesFrom lo m = true)
    (rises' : Memory.risesFrom lo' m' = true) (alike : ∀ a, Memory.read m a = Memory.read m' a) : m = m' := by
  induction m generalizing m' lo lo' with
  | nil =>
    cases m' with
    | nil => rfl
    | cons c' rest' => simpa [Memory.read] using alike c'.1
  | cons c rest ih =>
    cases m' with
    | nil => simpa [Memory.read] using alike c.1
    | cons c' rest' =>
      obtain ⟨k, x⟩ := c
      obtain ⟨k', x'⟩ := c'
      simp only [Memory.risesFrom, Bool.and_eq_true] at rises rises'
      obtain ⟨-, rises⟩ := rises
      obtain ⟨-, rises'⟩ := rises'
      obtain rfl : k = k' := Nat.le_antisymm (Memory.head_le_of_read_eq rises fun a => (alike a).symm)
        (Memory.head_le_of_read_eq rises' alike)
      obtain rfl : x = x' := by simpa [Memory.read] using alike k
      have tails : ∀ a, Memory.read rest a = Memory.read rest' a := fun a => by
        by_cases ha : a = k
        · subst ha
          have past : a < a + 1 := Nat.lt_succ_self a
          rw [Memory.read_eq_none_of_lt rises past, Memory.read_eq_none_of_lt rises' past]
        · simpa [Memory.read, ha] using alike a
      rw [ih rises rises' tails]

/-- Settles O5: by induction, the heads agree since each is its space's least index, and then the tails read alike. -/
theorem canonicalSpacesThatReadAlikeAreEqual : Obligations.CanonicalSpacesThatReadAlikeAreEqual :=
  fun _ _ => Memory.eq_of_risesFrom

/-! # The counters, the message index and the queues -/

/-- A handler's body either faults or leaves the foreground and the fault alone. -/
theorem State.runHandler_faults_or_keeps (s : State) (ch : Chan) :
    s.runHandler ch = s.raiseFault .imageOob
      ∨ ((s.runHandler ch).fault = s.fault ∧ (s.runHandler ch).seq = s.seq ∧ (s.runHandler ch).fgTx = s.fgTx) := by
  obtain ⟨-, h⟩ | ⟨-, -, h⟩ | ⟨-, -, h⟩ | ⟨-, -, h⟩ | ⟨-, -, h⟩ := s.runHandler_cases ch
  · exact .inr (by simp [h])
  · obtain ⟨-, ha⟩ | ⟨-, ha⟩ := s.evtABody_cases
    · exact .inl (h.trans ha)
    · exact .inr (by simp [h, ha])
  · exact .inr (by simp [h])
  · exact .inr (by simp [h])
  · exact .inr (by simp [h])

theorem StepCase.cmdLen_le {s t : State} {m : Move} (h : StepCase s m t) (inv : s.cmdLen.toNat ≤ cmdCap) :
    t.cmdLen.toNat ≤ cmdCap := by
  cases h with
  | lineAppend b rest ready head hb room =>
    simp only [cmdCap] at room ⊢
    bv_omega
  | lineEnd => simp
  | reset => simp
  | _ => simpa using inv

theorem StepCase.dataCnt_le {s t : State} {m : Move} (h : StepCase s m t) (inv : s.dataCnt.toNat ≤ imageSize) :
    t.dataCnt.toNat ≤ imageSize := by
  cases h with
  | dataByte b rest ready head room =>
    simp only [imageSize] at room ⊢
    bv_omega
  | dataLast => simp [imageSize]
  | reset => simp
  | _ => simpa using inv

/-- FG_TX names a byte of its message (R23). -/
def State.SendingInRange (s : State) : Prop := ∀ x, s.fgTx = some x → x.k < x.msg.bytes.length

theorem State.sendingInRange_of_none {s : State} (h : s.fgTx = none) : s.SendingInRange :=
  fun _ hx => nomatch h.symm.trans hx

theorem State.sendingInRange_of_some {s : State} {m : Msg} {k : Nat} (h : s.fgTx = some ⟨m, k⟩)
    (hk : k < m.bytes.length) : s.SendingInRange := by
  intro x hx
  cases h.symm.trans hx
  exact hk

theorem State.SendingInRange.congr {s t : State} (h : t.fgTx = s.fgTx) (inv : s.SendingInRange) : t.SendingInRange :=
  fun x hx => inv x (h ▸ hx)

theorem StepCase.keeps_SendingInRange {s t : State} {m : Move} (h : StepCase s m t) (inv : s.SendingInRange) :
    t.SendingInRange := by
  cases h with
  | lineEnd rest ready head room =>
    obtain ⟨-, hc⟩ | ⟨-, hc⟩ | ⟨-, hc⟩ := s.storeNewline.command_cases
      (classify (s.storeNewline.lineBytes (s.cmdLen.toNat + 1))) <;> rw [hc]
    · exact State.sendingInRange_of_some rfl (Msg.bytes_length_pos _)
    · exact State.sendingInRange_of_some rfl (Msg.bytes_length_pos _)
    · exact inv.congr rfl
  | dataLast => exact State.sendingInRange_of_some rfl (Msg.bytes_length_pos _)
  | fgSend m k b tx free phase byte room =>
    obtain ⟨-, hb⟩ | ⟨more, hb⟩ := (s.txByte b).sentByte_cases m k <;> rw [hb]
    · exact State.sendingInRange_of_none rfl
    · have := inv _ tx
      exact State.sendingInRange_of_some rfl (by simp only at this; omega)
  | dispatch ch free pend =>
    obtain hh | ⟨-, -, tx⟩ := (s.setPend ch false).runHandler_faults_or_keeps ch
    · exact State.sendingInRange_of_none (by simp [hh])
    · exact inv.congr tx
  | cmdOverrun | overrun | framing | fifo | reset => exact State.sendingInRange_of_none rfl
  | _ => exact inv.congr (by simp)

theorem StepCase.rxq_le {s t : State} {m : Move} (h : StepCase s m t) (inv : s.rxq.length ≤ s.cfg.platform.rxCap) :
    t.rxq.length ≤ s.cfg.platform.rxCap := by
  cases h with
  | push b ok room =>
    rw [State.hostPush_rxq, List.length_append]
    exact room
  | lineAppend | lineEnd | cmdOverrun | dataByte | dataLast => exact Nat.le_trans (by simp) inv
  | reset => simp
  | _ => simpa using inv

theorem State.txByte_txq_length_le {s : State} {b : Byte} (room : s.txRoom) :
    (s.txByte b).txq.length ≤ s.cfg.platform.txCap := by
  rw [State.txByte_txq, List.length_append]
  exact room

theorem StepCase.txq_le {s t : State} {m : Move} (h : StepCase s m t) (inv : s.txq.length ≤ s.cfg.platform.txCap) :
    t.txq.length ≤ s.cfg.platform.txCap := by
  cases h with
  | fgSend m k b tx free phase byte room =>
    rw [State.sentByte_txq]
    exact State.txByte_txq_length_le room
  | dSend ch k b progress ok byte room => exact State.txByte_txq_length_le room
  | pull => exact Nat.le_trans (by simp) inv
  | reset => simp
  | _ => simpa using inv

theorem StepCase.keeps_RangeInv {s t : State} {m : Move} (h : StepCase s m t) (inv : RangeInv s) : RangeInv t where
  cmdLen := h.cmdLen_le inv.cmdLen
  dataCnt := h.dataCnt_le inv.dataCnt
  fgTx := h.keeps_SendingInRange inv.fgTx
  rxq := h.cfg_eq ▸ h.rxq_le inv.rxq
  txq := h.cfg_eq ▸ h.txq_le inv.txq

theorem RangeInv.afterMove {s : State} (inv : RangeInv s) : RangeInv s.afterMove where
  cmdLen := by simpa using inv.cmdLen
  dataCnt := by simpa using inv.dataCnt
  fgTx := by simpa using inv.fgTx
  rxq := by simpa using inv.rxq
  txq := by simpa using inv.txq

/-- Settles O52: each counter and queue grows only where it has room, and a message index only short of the end. -/
theorem stepKeepsRanges : Obligations.StepKeepsRanges := by
  intro s t inv h
  obtain ⟨-, change⟩ := step_cases h
  exact change.keeps_RangeInv inv.afterMove

/-! # The phases and BOOT_FLAG -/

/-- The foreground's advances along the sequence of R130: DECIDE's exit is chosen by BOOT_FLAG (R132). -/
def Seq.Advances (boot : Bool) (q q' : Seq) : Prop :=
  (q = .rxCmd1 ∧ q' = .rxData) ∨ (q = .rxData ∧ q' = .rxCmd2) ∨ (q = .rxCmd2 ∧ q' = .deciding)
    ∨ (q = .deciding ∧ boot = true ∧ q' = .doArm) ∨ (q = .deciding ∧ boot = false ∧ q' = .waitIdle)
    ∨ (q = .doArm ∧ q' = .doStart) ∨ (q = .doStart ∧ q' = .waitRun)

theorem Seq.advances_nextPhase {q : Seq} (boot : Bool) (phase : q.isReception = true) :
    Seq.Advances boot q (nextPhase q) := by
  cases q with
  | rxCmd1 => exact .inl ⟨rfl, rfl⟩
  | rxData => exact .inr (.inl ⟨rfl, rfl⟩)
  | rxCmd2 => exact .inr (.inr (.inl ⟨rfl, rfl⟩))
  | _ => cases phase

theorem State.advances_decidedPhase (s : State) : Seq.Advances s.bootFlag .deciding s.decidedPhase := by
  cases hb : s.bootFlag <;> simp [State.decidedPhase, hb, Seq.Advances]

/-- What a step can do to SEQ. -/
theorem StepCase.seq_cases {s t : State} {m : Move} (h : StepCase s m t) (hm : m ≠ .reset) :
    t.seq = s.seq ∨ (t.seq = .faulted ∧ t.fault ≠ .noFault) ∨ (m = .fg ∧ Seq.Advances s.bootFlag s.seq t.seq) := by
  cases h with
  | lineEnd rest ready head room =>
    obtain ⟨-, phase, -⟩ := ready
    obtain ⟨-, hc⟩ | ⟨-, hc⟩ | ⟨-, hc⟩ := s.storeNewline.command_cases
      (classify (s.storeNewline.lineBytes (s.cmdLen.toNat + 1))) <;> rw [hc]
    · exact .inl rfl
    · exact .inl rfl
    · exact .inr (.inr ⟨rfl, Seq.advances_nextPhase _ (isLine_isReception phase)⟩)
  | fgSend m k b tx free phase byte room =>
    obtain ⟨-, hb⟩ | ⟨-, hb⟩ := (s.txByte b).sentByte_cases m k <;> rw [hb]
    · exact .inr (.inr ⟨rfl, Seq.advances_nextPhase _ phase⟩)
    · exact .inl rfl
  | decideBoot free phase => exact .inr (.inr ⟨rfl, phase ▸ s.advances_decidedPhase⟩)
  | arm free phase => exact .inr (.inr ⟨rfl, by simp [phase, Seq.Advances]⟩)
  | start free phase => exact .inr (.inr ⟨rfl, by simp [phase, Seq.Advances]⟩)
  | dispatch ch free pend =>
    obtain hh | ⟨-, seq, -⟩ := (s.setPend ch false).runHandler_faults_or_keeps ch
    · exact .inr (.inl (by simp [hh]))
    · exact .inl seq
  | cmdOverrun | overrun | framing | fifo => exact .inr (.inl (by simp))
  | reset => exact absurd rfl hm
  | _ => exact .inl (by simp)

/-- Settles O42: the receives' returns, DECIDE, ARM and START advance SEQ; a fault sets FAULTED; the rest leave it. -/
theorem phasesOnlyAdvance : Obligations.PhasesOnlyAdvance := by
  intro s t h hm
  obtain ⟨-, change⟩ := step_cases h
  simpa [Seq.Advances] using change.seq_cases hm

/-- BOOT_FLAG changes only where LINE_END completes the line of BOOT3WB. -/
theorem StepCase.bootFlag_cases {s t : State} {m : Move} (h : StepCase s m t) (hm : m ≠ .reset) :
    t.bootFlag = s.bootFlag
      ∨ (t.bootFlag = true ∧ m = .fg ∧ s.seq.isLine = true ∧ s.rxq.head? = some newline
          ∧ t.fgTx = some ⟨.bootloadStarted, 0⟩) := by
  cases h with
  | lineEnd rest ready head room =>
    obtain ⟨-, phase, -⟩ := ready
    obtain ⟨-, hc⟩ | ⟨-, hc⟩ | ⟨-, hc⟩ := s.storeNewline.command_cases
      (classify (s.storeNewline.lineBytes (s.cmdLen.toNat + 1))) <;> rw [hc]
    · exact .inl rfl
    · exact .inr ⟨rfl, rfl, phase, by rw [head]; rfl, rfl⟩
    · exact .inl rfl
  | reset => exact absurd rfl hm
  | _ => exact .inl (by simp)

/-- Settles O43: of the cases of a step only BOOT3WB's line writes BOOT_FLAG. -/
theorem bootFlagIsOnlyEverSet : Obligations.BootFlagIsOnlyEverSet := by
  intro s t h hm changed
  obtain ⟨-, change⟩ := step_cases h
  simpa using (change.bootFlag_cases hm).resolve_left (by simpa using changed)

/-! # The output lines and the history -/

/-- The output line `id` has neither been written nor changed. -/
structure LineKept (id : LineId) (s t : State) : Prop where
  level : t.line.get id = s.line.get id
  writes : lineWrites id t.history = lineWrites id s.history

theorem LineKept.of_eq {s t : State} (id : LineId) (line : t.line = s.line) (history : t.history = s.history) :
    LineKept id s t := ⟨by rw [line], by rw [history]⟩

theorem LineKept.trans {id : LineId} {s t u : State} (h : LineKept id s t) (h' : LineKept id t u) : LineKept id s u :=
  ⟨h'.level.trans h.level, h'.writes.trans h.writes⟩

/-- A write of one line leaves the others alone. -/
theorem State.setLine_keeps_others {id id' : LineId} (s : State) (l : Level) (ev : Option Chan) (ne : id' ≠ id) :
    LineKept id' s (s.setLine id l ev) where
  level := by simp [Lines.get_set, ne]
  writes := by simp [lineWrites, ne.symm]

/-- The one event that may write each line (R40), and where it may. -/
def State.mayWrite (s : State) (m : Move) (id : LineId) : Prop :=
  s.serState = .running
    ∧ match id with
      | .data => m = .isr .chA
      | .latch => m = .isr .chB
      | .clock => m = .isr .chC ∨ m = .isr .chD
      | .finish => m = .isr .chD ∧ s.atTerminal

/-- The line `id` is kept, or it was written by the event that may write it. -/
def LineOwned (m : Move) (s t : State) (id : LineId) : Prop :=
  LineKept id s t ∨ (s.mayWrite m id ∧ lineWrites id t.history ≠ lineWrites id s.history)

/-- Of the state before, only the lines, the history and what `mayWrite` asks matter. -/
theorem LineOwned.congr {m : Move} {s s' t : State} {id : LineId} (h : LineOwned m s' t id) (cfg : s'.cfg = s.cfg)
    (ser : s'.serState = s.serState) (byteIndex : s'.byteIndex = s.byteIndex) (line : s'.line = s.line)
    (history : s'.history = s.history) : LineOwned m s t id :=
  h.imp (LineKept.of_eq id line history).trans fun ⟨may, written⟩ =>
    ⟨by simpa only [State.mayWrite, State.atTerminal, cfg, ser, byteIndex] using may, history ▸ written⟩

theorem LineOwned.setLine {m : Move} {s : State} {id : LineId} {l : Level} {ev : Option Chan} (id' : LineId)
    (may : s.mayWrite m id) : LineOwned m s (s.setLine id l ev) id' := by
  by_cases same : id' = id
  · subst same
    exact .inr ⟨may, by simp [lineWrites]⟩
  · exact .inl (s.setLine_keeps_others l ev same)

theorem State.evtABody_lineOwned {s : State} (run : s.serState = .running) (id : LineId) :
    LineOwned (.isr .chA) s s.evtABody id := by
  obtain ⟨-, h⟩ | ⟨-, h⟩ := s.evtABody_cases <;> rw [h]
  · exact .inl (.of_eq id rfl rfl)
  · have written : LineOwned (.isr .chA) s (s.setLine .data (dataLevel s.evtBit) (some .chA)) id :=
      .setLine id ⟨run, rfl⟩
    exact written.imp (·.trans (.of_eq id (by simp) (by simp))) fun ⟨may, ne⟩ => ⟨may, by simpa using ne⟩

theorem State.evtDBody_lineOwned {s : State} (run : s.serState = .running) (id : LineId) :
    LineOwned (.isr .chD) s s.evtDBody id := by
  have clock : s.mayWrite (.isr .chD) .clock := ⟨run, .inr rfl⟩
  obtain ⟨terminal, h⟩ | ⟨-, h⟩ := s.evtDBody_cases <;> rw [h]
  · have finish : s.mayWrite (.isr .chD) .finish := ⟨run, rfl, terminal⟩
    cases id with
    | data | latch => exact .inl ⟨rfl, rfl⟩
    | clock => exact .inr ⟨clock, by simp [lineWrites]⟩
    | finish => exact .inr ⟨finish, by simp [lineWrites]⟩
  · exact .setLine id clock

theorem State.runHandler_lineOwned (s : State) (ch : Chan) (id : LineId) :
    LineOwned (.isr ch) s (s.runHandler ch) id := by
  obtain ⟨-, h⟩ | ⟨run, rfl, h⟩ | ⟨run, rfl, h⟩ | ⟨run, rfl, h⟩ | ⟨run, rfl, h⟩ := s.runHandler_cases ch <;> rw [h]
  · exact .inl ⟨rfl, rfl⟩
  · exact State.evtABody_lineOwned run id
  · rw [State.evtBBody_eq]
    exact .setLine id ⟨run, rfl⟩
  · exact .setLine id ⟨run, .inl rfl⟩
  · exact State.evtDBody_lineOwned run id

theorem StepCase.lineOwned {s t : State} {m : Move} (h : StepCase s m t) (hm : m ≠ .reset) (id : LineId) :
    LineOwned m s t id := by
  cases h with
  | dispatch ch free pend =>
    exact ((s.setPend ch false).runHandler_lineOwned ch id).congr rfl rfl rfl rfl rfl
  | push | overrun | pull => exact .inl ⟨rfl, rfl⟩
  | reset => exact absurd rfl hm
  | _ => exact .inl (.of_eq id (by simp) (by simp))

/-- Settles O44: each clause reads off who owns the line, of the case that the step is. -/
theorem linesHaveOneOwner : Obligations.LinesHaveOneOwner := by
  intro s t h hm
  obtain ⟨-, change⟩ := step_cases h
  have owned : ∀ id, LineOwned s.move s t id := fun id =>
    (change.lineOwned hm id).congr (by simp) (by simp) (by simp) (by simp) (by simp)
  have mayWrite : ∀ id, lineWrites id t.history ≠ lineWrites id s.history → s.mayWrite s.move id := fun id ne =>
    ((owned id).resolve_left fun kept => ne kept.writes).1
  exact ⟨fun id => ⟨fun eq => ((owned id).resolve_right fun written => written.2 eq).level,
      fun ne => (mayWrite id ne).1⟩,
    fun ne => (mayWrite .data ne).2, fun ne => (mayWrite .latch ne).2, fun ne => (mayWrite .clock ne).2,
    fun ne => (mayWrite .finish ne).2⟩

theorem State.evtDBody_history_suffix (s : State) : s.history <:+ s.evtDBody.history := by
  obtain ⟨-, h⟩ | ⟨-, h⟩ := s.evtDBody_cases <;> rw [h]
  · exact ⟨[_, _], rfl⟩
  · exact List.suffix_cons _ _

theorem State.evtABody_history_suffix (s : State) : s.history <:+ s.evtABody.history := by
  obtain ⟨-, h⟩ | ⟨-, h⟩ := s.evtABody_cases
  · exact ⟨[], (congrArg State.history h).symm⟩
  · rw [h, State.advanceCursor_history]
    exact List.suffix_cons _ _

theorem State.runHandler_history_suffix (s : State) (ch : Chan) : s.history <:+ (s.runHandler ch).history := by
  obtain ⟨-, h⟩ | ⟨-, -, h⟩ | ⟨-, -, h⟩ | ⟨-, -, h⟩ | ⟨-, -, h⟩ := s.runHandler_cases ch
  · exact ⟨[], (congrArg State.history h).symm⟩
  · rw [h]
    exact s.evtABody_history_suffix
  · rw [h, State.evtBBody_eq]
    exact List.suffix_cons _ _
  · rw [h]
    exact List.suffix_cons _ _
  · rw [h]
    exact s.evtDBody_history_suffix

theorem StepCase.history_suffix {s t : State} {m : Move} (h : StepCase s m t) : s.history <:+ t.history := by
  cases h with
  | dispatch ch free pend => exact (s.setPend ch false).runHandler_history_suffix ch
  | push | overrun | pull => exact List.suffix_cons _ _
  | _ => simp

/-- Settles O47: the parameters by the law of the step's cases; the history after is one that the history before ends. -/
theorem parametersStayAndHistoryGrows : Obligations.ParametersStayAndHistoryGrows := by
  intro s t h
  obtain ⟨-, change⟩ := step_cases h
  obtain ⟨new, hnew⟩ := change.history_suffix
  exact ⟨by simpa using change.cfg_eq, new, by simpa using hnew.symm⟩

/-! # The transport -/

theorem exec_faultFraming {s : State} (ok : s.fault = .noFault) :
    exec .faultFraming s = .next (s.raiseFault .xportFraming) := if_pos ok

theorem exec_faultFifo {s : State} (ok : s.fault = .noFault) :
    exec .faultFifo s = .next (s.raiseFault .xportFifo) := if_pos ok

theorem exec_faultRxOverrun {s : State} (b : Byte) (ok : s.fault = .noFault) (full : ¬ s.rxRoom) :
    exec (.faultRxOverrun b) s = .next ((s.recordPush b).raiseFault .xportOverrun) := if_pos ⟨ok, full⟩

/-- Settles O34: each is enabled, and what it answers is the one exception entry with its code. -/
theorem transportFaultsStopTheBlock : Obligations.TransportFaultsStopTheBlock :=
  fun _ b ok => ⟨exec_faultFraming ok, exec_faultFifo ok,
    fun full => exec_faultRxOverrun b ok (Nat.not_lt.2 full)⟩

theorem fetchPush_room {s : State} (b : Byte) (ok : s.fault = .noFault) (room : s.rxRoom) :
    fetchPush b s = .device (s.hostPush b) := by
  simp [fetchPush, ok, room]

theorem fetchPush_full {s : State} (b : Byte) (ok : s.fault = .noFault) (full : ¬ s.rxRoom) :
    fetchPush b s = .unit (.transport .rxOverrun) [b] := by
  simp [fetchPush, ok, full]

theorem fetchPull_head {s : State} {b : Byte} {rest : List Byte} (head : s.txq = b :: rest) :
    fetchPull s = .device (s.hostPull b) := by
  simp [fetchPull, head]

/-- Settles O35: with room and at a pull the move fetches the queue's change, and onto a full RXQ the overrun. -/
theorem hostPushesAndPulls : Obligations.HostPushesAndPulls := by
  intro s b legal
  refine ⟨fun mv ok room => ?_, fun mv ok full => ?_, fun rest mv head => ?_⟩
  · rw [step_of_device legal mv (fetchPush_room b (by simpa using ok) (by simpa using room))]
    simp [State.hostPush, State.recordPush]
  · exact step_of_unit legal mv (fetchPush_full b (by simpa using ok) (by simpa using full)) rfl
  · rw [step_of_device legal mv (fetchPull_head (by simpa using head))]
    simp [State.hostPull, head]

/-! # The cursor under H-DEADLINE -/

/-- What the cursor's invariants see of a state. -/
def State.cursorView (s : State) :
    Params × BitVec 17 × BitVec 3 × SerState × Bool × PerChan Bool × Chan × FaultCode × Option (Fin 18) :=
  (s.cfg, s.byteIndex, s.bitIndex, s.serState, s.tmrEn, s.tmrPend, s.tmrNext, s.fault, s.handler)

theorem CursorInv.congr {s t : State} (inv : CursorInv s) (same : t.cursorView = s.cursorView) : CursorInv t := by
  simp only [State.cursorView, Prod.mk.injEq] at same
  obtain ⟨cfg, byteIndex, bitIndex, ser, en, pend, next, fault, handler⟩ := same
  obtain ⟨bound, atEnd, before, armed, running, handling⟩ := inv
  constructor <;>
    simpa only [State.noPending, State.onePending, State.nextHandled, cfg, byteIndex, bitIndex, ser, en, pend, next, fault,
      handler]

/-- Before ARM and START nothing is pending, so a pending event finds the serializer RUNNING or DONE. -/
theorem CursorInv.started_of_pending {s : State} {ch : Chan} (inv : CursorInv s) (pend : s.tmrPend.get ch = true) :
    s.serState = .running ∨ s.serState = .done := by
  have quiet : s.tmrPend.get ch = true → ¬ s.noPending := fun pend np => by
    simp [(PerChan.eq_allFalse_iff _).1 np ch] at pend
  cases hs : s.serState with
  | running => exact .inl rfl
  | done => exact .inr rfl
  | idle => exact absurd (inv.before (.inl hs)).2 (quiet pend)
  | armed => exact absurd (inv.before (.inr hs)).2 (quiet pend)

/-- The timer is on only once the serializer is RUNNING or DONE. -/
theorem CursorInv.started_of_enabled {s : State} (inv : CursorInv s) (en : s.tmrEn = true) :
    s.serState = .running ∨ s.serState = .done := by
  cases hs : s.serState with
  | running => exact .inl rfl
  | done => exact .inr rfl
  | idle => simp [(inv.before (.inl hs)).1] at en
  | armed => simp [(inv.before (.inr hs)).1] at en

theorem State.nextHandled_of_noPending {s : State} (h : s.noPending) : s.nextHandled = s.tmrNext := by
  simp [State.nextHandled, h]

/-- The one pending event is the next to be handled; once taken it leaves nothing pending, and the next channel fires. -/
theorem State.onePending.taken {s : State} {ch : Chan} (one : s.onePending) (pend : s.tmrPend.get ch = true) :
    (s.setPend ch false).noPending ∧ s.nextHandled = ch ∧ s.tmrNext = nextChan ch := by
  obtain none_pending | ⟨ch', single, next⟩ := one
  · simp [(PerChan.eq_allFalse_iff _).1 none_pending ch] at pend
  · obtain rfl : ch = ch' := by
      rw [single, PerChan.get_set] at pend
      refine Decidable.byContradiction fun ne => ?_
      rw [if_neg ne] at pend
      cases ch <;> cases pend
    refine ⟨?_, ?_, next⟩
    · simp only [State.noPending, State.setPend_tmrPend, single]
      cases ch <;> rfl
    · simp only [State.nextHandled, single]
      cases ch <;> rfl

/-- The invariants of a running serializer with no handler in progress and nothing pending: the cursor's bounds, and that
the next event is no EVT_A after the terminal one. -/
theorem CursorInv.of_noPending {s : State} (run : s.serState = .running) (idle : s.handler = none) (np : s.noPending)
    (bound : s.byteIndex.toNat ≤ s.cfg.terminalCount)
    (atEnd : s.atTerminal → s.bitIndex = 0 ∧ s.tmrNext ≠ .chA) : CursorInv s where
  bound := bound
  atEnd terminal := (atEnd terminal).1
  before h := by simp [run] at h
  armed h := by simp [run] at h
  running _ _ _ := ⟨.inl np, fun terminal => by
    rw [State.nextHandled_of_noPending np]
    exact (atEnd terminal).2⟩
  handling h := absurd idle h

/-- In any state but RUNNING the handler does nothing (R157). -/
theorem State.runHandler_of_not_running {s : State} {ch : Chan} (h : s.serState ≠ .running) : s.runHandler ch = s := by
  obtain ⟨-, same⟩ | ⟨run, -⟩ | ⟨run, -⟩ | ⟨run, -⟩ | ⟨run, -⟩ := s.runHandler_cases ch
  · exact same
  all_goals exact absurd run h

/-- In DONE only the cursor's bounds are asked. -/
theorem CursorInv.of_done {s : State} (done : s.serState = .done) (idle : s.handler = none)
    (bound : s.byteIndex.toNat ≤ s.cfg.terminalCount) (atEnd : s.atTerminal → s.bitIndex = 0) : CursorInv s where
  bound := bound
  atEnd := atEnd
  before h := by simp [done] at h
  armed h := by simp [done] at h
  running _ h := by simp [done] at h
  handling h := absurd idle h

/-- A fault disables the timer and ends the handler; the cursor stays. -/
theorem CursorInv.raiseFault {s : State} {code : FaultCode} (inv : CursorInv s) (hc : code ≠ .noFault) :
    CursorInv (s.raiseFault code) where
  bound := inv.bound
  atEnd := inv.atEnd
  before h := ⟨rfl, (inv.before h).2⟩
  armed := inv.armed
  running ok := absurd ok hc
  handling h := absurd rfl h

/-- A firing while nothing is pending makes the one event that is pending. -/
theorem CursorInv.fire {s : State} (inv : CursorInv s) (started : s.serState = .running ∨ s.serState = .done)
    (np : s.fault = .noFault → s.serState = .running → s.handler = none → s.noPending) : CursorInv s.fire where
  bound := inv.bound
  atEnd := inv.atEnd
  before (h : s.serState = .idle ∨ s.serState = .armed) := by obtain h | h := h <;> simp [h] at started
  armed (h : s.serState = .armed) := by simp [h] at started
  running ok run idle := by
    have none_pending := np ok run idle
    have fired : s.fire.tmrPend = PerChan.set ⟨false, false, false, false⟩ s.tmrNext true := by
      rw [State.fire_tmrPend, none_pending]
    refine ⟨.inr ⟨s.tmrNext, fired, rfl⟩, fun terminal => ?_⟩
    have next : s.fire.nextHandled = s.tmrNext := by
      simp only [State.nextHandled, fired]
      cases s.tmrNext <;> rfl
    rw [next, ← State.nextHandled_of_noPending none_pending]
    exact (inv.running ok run idle).2 terminal
  handling := inv.handling

/-- EVT_A before the terminal cursor moves the cursor on by one bit, at most to the terminal cursor (R61). -/
theorem State.advanceCursor_bounds {s : State} {n : Nat} (below : s.byteIndex.toNat < n) (hn : n ≤ imageSize) :
    s.advanceCursor.byteIndex.toNat ≤ n
      ∧ (s.advanceCursor.byteIndex.toNat = n → s.advanceCursor.bitIndex = 0) := by
  obtain ⟨-, h⟩ | ⟨-, h⟩ := s.advanceCursor_cases <;> rw [h]
  · refine ⟨?_, fun _ => rfl⟩
    simp only [imageSize] at hn ⊢
    bv_omega
  · exact ⟨Nat.le_of_lt below, fun eq => absurd eq (Nat.ne_of_lt below)⟩

theorem Params.legal_bounds {p : Params} (h : p.legal = true) : 1 ≤ p.terminalCount ∧ p.terminalCount ≤ imageSize := by
  simpa [Params.legal] using h

/-- EVT_A while RUNNING, with nothing else pending and the cursor short of its end. -/
theorem CursorInv.evtABody {s : State} (legal : s.cfg.legal = true) (run : s.serState = .running)
    (idle : s.handler = none) (np : s.noPending) (next : s.tmrNext = .chB)
    (below : s.byteIndex.toNat < s.cfg.terminalCount) : CursorInv s.evtABody := by
  obtain ⟨-, le_imageSize⟩ := Params.legal_bounds legal
  obtain ⟨outside, -⟩ | ⟨-, h⟩ := s.evtABody_cases
  · exact absurd (Nat.lt_of_lt_of_le below le_imageSize) (Nat.not_lt.2 outside)
  · obtain ⟨bound, atEnd⟩ :=
      State.advanceCursor_bounds (s := s.setLine .data (dataLevel s.evtBit) (some .chA)) below le_imageSize
    rw [h]
    exact .of_noPending (by simpa using run) (by simpa using idle) (by simpa [State.noPending] using np)
      (by simpa using bound) fun terminal => ⟨atEnd (by simpa [State.atTerminal] using terminal), by simp [next]⟩

/-- EVT_D while RUNNING, with nothing else pending: at the terminal cursor the handler stays in progress, so that no EVT_A
can follow. -/
theorem CursorInv.evtDBody {s : State} (run : s.serState = .running) (idle : s.handler = none) (np : s.noPending)
    (bound : s.byteIndex.toNat ≤ s.cfg.terminalCount) (atEnd : s.atTerminal → s.bitIndex = 0) :
    CursorInv s.evtDBody := by
  obtain ⟨terminal, h⟩ | ⟨short, h⟩ := s.evtDBody_cases <;> rw [h]
  · exact {
      bound := bound
      atEnd := atEnd
      before := fun h => by simp [run] at h
      armed := fun h => by simp [run] at h
      running := fun _ _ h => nomatch h
      handling := fun _ => ⟨run, terminal⟩ }
  · exact .of_noPending run idle np bound fun terminal => absurd terminal short

/-- DISPATCH takes the one pending event, which is no EVT_A at the terminal cursor. -/
theorem CursorInv.dispatch {s : State} {ch : Chan} (inv : CursorInv s) (legal : s.cfg.legal = true) (free : s.free)
    (pend : s.tmrPend.get ch = true) : CursorInv ((s.setPend ch false).runHandler ch) := by
  obtain ⟨ok, idle⟩ := free
  obtain run | done := inv.started_of_pending pend
  · obtain ⟨one, notA⟩ := inv.running ok run idle
    obtain ⟨np, handled, next⟩ := one.taken pend
    rw [handled] at notA
    have kept : ch = .chB ∨ ch = .chC → CursorInv (s.setPend ch false) := fun h =>
      .of_noPending run idle np inv.bound fun terminal =>
        ⟨inv.atEnd terminal, by obtain rfl | rfl := h <;> simp [next, nextChan]⟩
    obtain ⟨halted, -⟩ | ⟨-, rfl, h⟩ | ⟨-, rfl, h⟩ | ⟨-, rfl, h⟩ | ⟨-, rfl, h⟩ :=
      (s.setPend ch false).runHandler_cases ch
    · exact absurd run halted
    · rw [h]
      exact .evtABody legal run idle np next (Nat.lt_of_le_of_ne inv.bound fun terminal => notA terminal rfl)
    · rw [h]
      exact (kept (.inl rfl)).congr (by simp [State.cursorView])
    · rw [h]
      exact (kept (.inr rfl)).congr (by simp [State.cursorView])
    · rw [h]
      exact .evtDBody run idle np inv.bound inv.atEnd
  · rw [State.runHandler_of_not_running (by simp [done])]
    exact .of_done done idle inv.bound inv.atEnd

/-- ARM sets the cursor to (0, 0) and channel A to fire first. -/
theorem CursorInv.arm {s : State} (inv : CursorInv s) (free : s.free) (ser : s.serState = .idle) :
    CursorInv { s.armTimer with tmrNext := .chA, byteIndex := 0, bitIndex := 0, serState := .armed, seq := .doStart } where
  bound := Nat.zero_le _
  atEnd _ := rfl
  before _ := by simpa [State.noPending] using inv.before (.inl ser)
  armed _ := ⟨rfl, rfl, rfl⟩
  running _ h := nomatch h
  handling h := absurd (by simpa using free.2) h

/-- START finds the cursor at (0, 0), short of a legal terminal count. -/
theorem CursorInv.start {s : State} (inv : CursorInv s) (legal : s.cfg.legal = true) (free : s.free)
    (ser : s.serState = .armed) : CursorInv { s.timerEnable with serState := .running, seq := .waitRun } := by
  obtain ⟨one_le, -⟩ := Params.legal_bounds legal
  obtain ⟨-, np⟩ := inv.before (.inr ser)
  obtain ⟨byteIndex, -, -⟩ := inv.armed ser
  have short : s.byteIndex.toNat ≠ s.cfg.terminalCount := by
    rw [byteIndex]
    exact Nat.ne_of_lt one_le
  exact .of_noPending rfl free.2 np inv.bound fun terminal => absurd terminal short

/-- Each case of a step keeps the cursor's invariants, a firing where nothing is pending. -/
theorem StepCase.keeps_CursorInv {s t : State} {m : Move} (h : StepCase s m t) (inv : CursorInv s)
    (legal : s.cfg.legal = true) (abst : s.cfg.tickLevel = false)
    (deadline : m = .timer → s.tmrEn = true → s.fault = .noFault → s.serState = .running → s.handler = none →
      s.noPending) : CursorInv t := by
  cases h with
  | cmdOverrun => exact .raiseFault (inv.congr rfl) (by decide)
  | arm free phase ser => exact inv.arm free ser
  | start free phase ser => exact inv.start legal free ser
  | fire en ok => exact inv.fire (inv.started_of_enabled en) (deadline rfl en)
  | tick en ok ticks => exact absurd (abst.symm.trans ticks) (by decide)
  | dispatch ch free pend => exact inv.dispatch legal free pend
  | dSend ch k b progress =>
    have handling := inv.handling (by simp [progress])
    exact {
      bound := inv.bound
      atEnd := inv.atEnd
      before := inv.before
      armed := inv.armed
      running := fun _ _ h => nomatch h
      handling := fun _ => handling }
  | dEnd => exact .of_done rfl rfl inv.bound inv.atEnd
  | overrun | framing | fifo => exact .raiseFault (inv.congr rfl) (by decide)
  | reset => exact (State.resetWith_CursorInv s.cfg).congr rfl
  | _ => exact inv.congr (by simp [State.cursorView])

/-- Settles O56: under H-DEADLINE the timer fires only while nothing is pending, so events come one at a time in the order
of the channels, and the terminal EVT_D comes before the next EVT_A. -/
theorem stepKeepsTheCursorUnderDeadline : Obligations.StepKeepsTheCursorUnderDeadline := by
  intro s t inv abst deadline h
  obtain ⟨legal, change⟩ := step_cases h
  refine change.keeps_CursorInv (inv.congr (by simp [State.cursorView])) (by simpa using legal) (by simpa using abst) ?_
  simp only [State.afterMove_tmrEn, State.afterMove_fault, State.afterMove_serState, State.afterMove_handler,
    State.noPending, State.afterMove_tmrPend]
  exact fun mv en ok run idle => deadline.noPending ⟨mv, en, ok⟩ run idle abst

end Sys2Proof.Machine

namespace Sys2Proof.Machine

/-! # Who writes the buffers -/

theorem StepCase.resets_eq {s t : State} {m : Move} (h : StepCase s m t) (hm : m ≠ .reset) : t.resets = s.resets := by
  cases h with
  | reset => exact absurd rfl hm
  | _ => simp

/-- DATA_BYTE and DATA_LAST, which write IMAGE, are the foreground's in RX_DATA (R107, R108). -/
theorem StepCase.image_eq {s t : State} {m : Move} (h : StepCase s m t) (hm : m ≠ .reset)
    (outside : ¬ (m = .fg ∧ s.seq = .rxData)) : t.image = s.image := by
  cases h with
  | dataByte b rest ready | dataLast b rest ready =>
    obtain ⟨-, phase, -⟩ := ready
    exact absurd ⟨rfl, phase⟩ outside
  | reset => exact absurd rfl hm
  | _ => simp

/-- LINE_APPEND and LINE_END, which write CMD, are the foreground's in a line phase (R101, R102). -/
theorem StepCase.cmd_eq {s t : State} {m : Move} (h : StepCase s m t) (hm : m ≠ .reset)
    (outside : ¬ (m = .fg ∧ s.seq.isLine = true)) : t.cmd = s.cmd := by
  cases h with
  | lineAppend b rest ready | lineEnd rest ready =>
    obtain ⟨-, phase, -⟩ := ready
    exact absurd ⟨rfl, phase⟩ outside
  | reset => exact absurd rfl hm
  | _ => simp

/-- Settles O46: outside its phases a step keeps the space, and the free contents change at a reset only. -/
theorem buffersAreWrittenInTheirPhases : Obligations.BuffersAreWrittenInTheirPhases := by
  intro s t h hm
  obtain ⟨-, change⟩ := step_cases h
  have resets : t.resets = s.resets := by simpa using change.resets_eq hm
  refine ⟨fun outside => State.readImage_congr ?_ resets, fun outside => State.readCmd_congr ?_ resets⟩
  · simpa using change.image_eq hm (by simpa using outside)
  · simpa using change.cmd_eq hm (by simpa using outside)

end Sys2Proof.Machine

namespace Sys2Proof.Machine

/-! # A period under H-DEADLINE -/

/-- A running serializer with the timer on, nothing pending and `ch` to fire next, in the abstract timer model. -/
structure State.Awaits (s : State) (ch : Chan) : Prop where
  legal : s.cfg.legal = true
  abst : s.cfg.tickLevel = false
  ok : s.fault = .noFault
  idle : s.handler = none
  run : s.serState = .running
  en : s.tmrEn = true
  next : s.tmrNext = ch
  quiet : s.noPending

theorem AtPeriodStart.awaits {s : State} (h : AtPeriodStart s) : s.Awaits .chA := by
  obtain ⟨legal, abst, ok, idle, run, en, next, quiet⟩ := h
  exact ⟨legal, abst, ok, idle, run, en, next, quiet⟩

/-- The state in which the channel `ch` has fired and its pending event has been taken, by the next two moves. -/
def State.eventTaken (s : State) (ch : Chan) : State := { s with tmrNext := nextChan ch, agenda := s.agenda.drop 2 }

/-- The state after an event of the channel `ch`: it fired, and its handler took its step. -/
def State.afterEvent (s : State) (ch : Chan) : State := (s.eventTaken ch).runHandler ch

/-- The state after the four events of a period. -/
def State.afterPeriod (s : State) : State :=
  (((s.afterEvent .chA).afterEvent .chB).afterEvent .chC).afterEvent .chD

theorem step_fires {s : State} {ch : Chan} {rest : List Move} (h : s.Awaits ch) (agenda : s.agenda = .timer :: rest) :
    step s = .next { s with tmrPend := s.tmrPend.set ch true, tmrNext := nextChan ch, agenda := rest } := by
  have mv : s.move = .timer := by simp only [State.move, agenda]
  have taken : s.afterMove = { s with agenda := rest } := by simp only [State.afterMove, agenda]
  obtain ⟨fires, -⟩ := step_timer h.legal mv h.ok
  rw [fires h.en h.abst, taken, ← h.next]
  exact if_pos ⟨h.en, h.ok⟩

theorem step_handles {s : State} {ch : Chan} {rest : List Move} (legal : s.cfg.legal = true) (free : s.free)
    (pend : s.tmrPend.get ch = true) (agenda : s.agenda = .isr ch :: rest) :
    step s = .next ({ s with tmrPend := s.tmrPend.set ch false, agenda := rest }.runHandler ch) := by
  have mv : s.move = .isr ch := by simp only [State.move, agenda]
  have taken : s.afterMove = { s with agenda := rest } := by simp only [State.afterMove, agenda]
  obtain ⟨ok, idle⟩ := free
  obtain ⟨dispatches, -, -⟩ := step_handler legal mv ok
  rw [dispatches idle pend, taken]
  exact if_pos ⟨⟨ok, idle⟩, pend⟩

/-- A pending bit that is set and then cleared where nothing is pending leaves nothing pending. -/
theorem State.noPending.set_clear {s : State} (quiet : s.noPending) (ch : Chan) :
    (s.tmrPend.set ch true).set ch false = s.tmrPend := by
  rw [quiet]
  cases ch <;> rfl

theorem run_event {s : State} {ch : Chan} {rest : List Move} (n : Nat) (h : s.Awaits ch)
    (agenda : s.agenda = .timer :: .isr ch :: rest) :
    Host.Core.run core (n + 2) s = Host.Core.run core n (s.afterEvent ch) := by
  have fires := step_fires h agenda
  have handles := step_handles
    (s := { s with tmrPend := s.tmrPend.set ch true, tmrNext := nextChan ch, agenda := .isr ch :: rest })
    h.legal ⟨h.ok, h.idle⟩ (PerChan.get_set_same _ _ _) rfl
  rw [Core.run_succ_of_step (n + 1) fires, Core.run_succ_of_step n handles, State.afterEvent,
    State.eventTaken, agenda]
  simp only [State.noPending.set_clear h.quiet, List.drop_succ_cons, List.drop_zero]

/-! ## What an event of a running serializer does -/

@[simp] theorem State.afterEvent_cfg (s : State) (ch : Chan) : (s.afterEvent ch).cfg = s.cfg :=
  State.runHandler_cfg _ _
@[simp] theorem State.afterEvent_serState (s : State) (ch : Chan) : (s.afterEvent ch).serState = s.serState :=
  State.runHandler_serState _ _
@[simp] theorem State.afterEvent_tmrNext (s : State) (ch : Chan) : (s.afterEvent ch).tmrNext = nextChan ch :=
  State.runHandler_tmrNext _ _
@[simp] theorem State.afterEvent_tmrPend (s : State) (ch : Chan) : (s.afterEvent ch).tmrPend = s.tmrPend :=
  State.runHandler_tmrPend _ _
@[simp] theorem State.afterEvent_agenda (s : State) (ch : Chan) : (s.afterEvent ch).agenda = s.agenda.drop 2 :=
  State.runHandler_agenda _ _

theorem State.afterEvent_agenda_of_cons {s : State} {m m' : Move} {rest : List Move} (ch : Chan)
    (agenda : s.agenda = m :: m' :: rest) : (s.afterEvent ch).agenda = rest := by
  rw [State.afterEvent_agenda, agenda, List.drop_succ_cons, List.drop_succ_cons, List.drop_zero]

@[simp] theorem State.afterEvent_readImage (s : State) (ch : Chan) (a : Nat) :
    (s.afterEvent ch).readImage a = s.readImage a :=
  State.readImage_congr (State.runHandler_image _ _) (State.runHandler_resets _ _) a

/-- EVT_A inside IMAGE: the bit goes out inverted, and the cursor moves on (R152). -/
theorem State.afterEvent_chA {s : State} (run : s.serState = .running) (inside : s.byteIndex.toNat < imageSize) :
    s.afterEvent .chA
      = ((s.eventTaken .chA).setLine .data (dataLevel s.evtBit) (some .chA)).advanceCursor := by
  have run' : (s.eventTaken .chA).serState = .running := run
  simp only [State.afterEvent, State.runHandler, run']
  exact if_neg (Nat.not_le.2 inside)

theorem State.afterEvent_chB {s : State} (run : s.serState = .running) :
    s.afterEvent .chB = (s.eventTaken .chB).setLine .latch
      (if s.atBoundary then s.asserted .latch else s.deasserted .latch) (some .chB) := by
  have run' : (s.eventTaken .chB).serState = .running := run
  simp only [State.afterEvent, State.runHandler, run']
  exact State.evtBBody_eq _

theorem State.afterEvent_chC {s : State} (run : s.serState = .running) :
    s.afterEvent .chC = (s.eventTaken .chC).setLine .clock .low (some .chC) := by
  have run' : (s.eventTaken .chC).serState = .running := run
  simp only [State.afterEvent, State.runHandler, run']
  rfl

/-- At the terminal cursor EVT_D also asserts FINISH and leaves its handler in progress (R155). -/
theorem State.afterEvent_chD {s : State} (run : s.serState = .running) :
    (s.atTerminal ∧ s.afterEvent .chD =
        { ((s.eventTaken .chD).setLine .clock .high (some .chD)).setLine .finish (s.asserted .finish) (some .chD) with
            handler := some 0 })
      ∨ (¬ s.atTerminal ∧ s.afterEvent .chD = (s.eventTaken .chD).setLine .clock .high (some .chD)) := by
  have run' : (s.eventTaken .chD).serState = .running := run
  simp only [State.afterEvent, State.runHandler, run']
  exact (s.eventTaken .chD).evtDBody_cases

/-- After an event that neither faults nor terminates, the next channel's is awaited. -/
theorem State.Awaits.afterEvent {s : State} {ch : Chan} (h : s.Awaits ch)
    (inside : ch = .chA → s.byteIndex.toNat < imageSize) (short : ch = .chD → ¬ s.atTerminal) :
    (s.afterEvent ch).Awaits (nextChan ch) := by
  have kept : (s.afterEvent ch).fault = s.fault ∧ (s.afterEvent ch).handler = s.handler
      ∧ (s.afterEvent ch).tmrEn = s.tmrEn := by
    cases ch with
    | chA => simp [State.afterEvent_chA h.run (inside rfl), State.eventTaken]
    | chB => simp [State.afterEvent_chB h.run, State.eventTaken]
    | chC => simp [State.afterEvent_chC h.run, State.eventTaken]
    | chD =>
      obtain ⟨terminal, -⟩ | ⟨-, eq⟩ := State.afterEvent_chD h.run
      · exact absurd terminal (short rfl)
      · simp [eq, State.eventTaken]
  obtain ⟨ok, idle, en⟩ := kept
  exact {
    legal := by simpa using h.legal
    abst := by simpa using h.abst
    ok := ok.trans h.ok
    idle := idle.trans h.idle
    run := by simpa using h.run
    en := en.trans h.en
    next := s.afterEvent_tmrNext ch
    quiet := (s.afterEvent_tmrPend ch).trans h.quiet }

/-- From the start of a period inside IMAGE, the events come in the order of the channels (R208, R215). -/
theorem State.Awaits.within_period {s : State} (h : s.Awaits .chA) (inside : s.byteIndex.toNat < imageSize) :
    (s.afterEvent .chA).Awaits .chB ∧ ((s.afterEvent .chA).afterEvent .chB).Awaits .chC
      ∧ (((s.afterEvent .chA).afterEvent .chB).afterEvent .chC).Awaits .chD := by
  have awaitsB : (s.afterEvent .chA).Awaits .chB := h.afterEvent (fun _ => inside) nofun
  have awaitsC : ((s.afterEvent .chA).afterEvent .chB).Awaits .chC := awaitsB.afterEvent nofun nofun
  exact ⟨awaitsB, awaitsC, awaitsC.afterEvent nofun nofun⟩

theorem run_period {s : State} {rest : List Move} (n : Nat) (h : s.Awaits .chA)
    (inside : s.byteIndex.toNat < imageSize) (agenda : s.agenda = period ++ rest) :
    Host.Core.run core (n + 8) s = Host.Core.run core n s.afterPeriod := by
  obtain ⟨awaitsB, awaitsC, awaitsD⟩ := h.within_period inside
  have agendaB := State.afterEvent_agenda_of_cons .chA agenda
  have agendaC := State.afterEvent_agenda_of_cons .chB agendaB
  have agendaD := State.afterEvent_agenda_of_cons .chC agendaC
  rw [run_event (n + 6) h agenda, run_event (n + 4) awaitsB agendaB, run_event (n + 2) awaitsC agendaC,
    run_event n awaitsD agendaD, State.afterPeriod]

/-! ## The cursor -/

/-- How many bits the cursor has passed (R61). -/
def State.cursor (s : State) : Nat := 8 * s.byteIndex.toNat + s.bitIndex.toNat

theorem State.cursor_div (s : State) : s.cursor / 8 = s.byteIndex.toNat := by
  have := s.bitIndex.isLt
  simp only [State.cursor]
  omega

theorem State.cursor_mod (s : State) : s.cursor % 8 = s.bitIndex.toNat := by
  have := s.bitIndex.isLt
  simp only [State.cursor]
  omega

theorem State.cursor_congr {s t : State} (hbyte : t.byteIndex = s.byteIndex) (hbit : t.bitIndex = s.bitIndex) :
    t.cursor = s.cursor := by
  rw [State.cursor, hbyte, hbit, State.cursor]

theorem State.advanceCursor_cursor {s : State} (inside : s.byteIndex.toNat < imageSize) :
    s.advanceCursor.cursor = s.cursor + 1 := by
  simp only [imageSize] at inside
  obtain ⟨last, h⟩ | ⟨mid, h⟩ := s.advanceCursor_cases <;> rw [h] <;> simp only [State.cursor] <;> bv_omega

/-- EVT_A's operand is the image's next bit (R61, R89). -/
theorem State.evtBit_eq_imageBit (s : State) : s.evtBit = s.imageBit s.cursor := by
  rw [State.evtBit, State.imageBit, s.cursor_div, s.cursor_mod]

/-! ## What a period of a running serializer does -/

@[simp] theorem State.afterPeriod_cfg (s : State) : s.afterPeriod.cfg = s.cfg := by simp [State.afterPeriod]
@[simp] theorem State.afterPeriod_readImage (s : State) (a : Nat) : s.afterPeriod.readImage a = s.readImage a := by
  simp [State.afterPeriod]

theorem State.afterPeriod_agenda {s : State} {rest : List Move} (agenda : s.agenda = period ++ rest) :
    s.afterPeriod.agenda = rest := by
  simp [State.afterPeriod, agenda, period]

section Running
variable {s : State} (run : s.serState = .running) (inside : s.byteIndex.toNat < imageSize)

include run inside in
theorem State.afterEvent_chA_cursor : (s.afterEvent .chA).cursor = s.cursor + 1 := by
  rw [State.afterEvent_chA run inside]
  exact State.advanceCursor_cursor inside

include run in
/-- Only EVT_A moves the cursor. -/
theorem State.afterEvent_cursor {ch : Chan} (notA : ch ≠ .chA) : (s.afterEvent ch).cursor = s.cursor := by
  cases ch with
  | chA => exact absurd rfl notA
  | chB => rw [State.afterEvent_chB run]; rfl
  | chC => rw [State.afterEvent_chC run]; rfl
  | chD => obtain ⟨-, h⟩ | ⟨-, h⟩ := State.afterEvent_chD run <;> rw [h] <;> rfl

include run inside in
theorem State.afterPeriod_cursor : s.afterPeriod.cursor = s.cursor + 1 := by
  rw [State.afterPeriod, State.afterEvent_cursor (by simpa using run) (by decide),
    State.afterEvent_cursor (by simpa using run) (by decide),
    State.afterEvent_cursor (by simpa using run) (by decide), State.afterEvent_chA_cursor run inside]

include run inside in
theorem State.afterEvent_chA_history :
    (s.afterEvent .chA).history = .lineWrite .data (dataLevel s.evtBit) (some .chA) :: s.history := by
  rw [State.afterEvent_chA run inside, State.advanceCursor_history]
  rfl

include run in
theorem State.afterEvent_chB_history : (s.afterEvent .chB).history
    = .lineWrite .latch (if s.atBoundary then s.asserted .latch else s.deasserted .latch) (some .chB) :: s.history := by
  rw [State.afterEvent_chB run]
  rfl

include run in
theorem State.afterEvent_chC_history :
    (s.afterEvent .chC).history = .lineWrite .clock .low (some .chC) :: s.history := by
  rw [State.afterEvent_chC run]
  rfl

include run in
/-- Of the other lines than FINISH, EVT_D writes CLOCK, whether it terminates or not. -/
theorem State.afterEvent_chD_writes {id : LineId} (notFinish : id ≠ .finish) :
    lineWrites id (s.afterEvent .chD).history
      = lineWrites id (.lineWrite .clock .high (some .chD) :: s.history) := by
  obtain ⟨-, h⟩ | ⟨-, h⟩ := State.afterEvent_chD run <;> rw [h]
  · exact if_neg notFinish.symm
  · rfl

include run inside in
/-- What a period writes to the lines other than FINISH, each by its own event (R40). -/
theorem State.afterPeriod_writes {id : LineId} (notFinish : id ≠ .finish) :
    ∃ latch, lineWrites id s.afterPeriod.history = lineWrites id
      (.lineWrite .clock .high (some .chD) :: .lineWrite .clock .low (some .chC)
        :: .lineWrite .latch latch (some .chB) :: .lineWrite .data (dataLevel s.evtBit) (some .chA) :: s.history) := by
  rw [State.afterPeriod, State.afterEvent_chD_writes (by simpa using run) notFinish]
  simp only [lineWrites]
  rw [State.afterEvent_chC_history (by simpa using run), State.afterEvent_chB_history (by simpa using run),
    State.afterEvent_chA_history run inside]
  exact ⟨_, rfl⟩

end Running

/-- Short of the terminal count a period ends where the next may begin. -/
theorem State.Awaits.afterPeriod {s : State} (h : s.Awaits .chA) (inside : s.byteIndex.toNat < imageSize)
    (short : s.cursor + 1 < 8 * s.cfg.terminalCount) : s.afterPeriod.Awaits .chA := by
  obtain ⟨awaitsB, awaitsC, awaitsD⟩ := h.within_period inside
  refine awaitsD.afterEvent nofun fun _ terminal => ?_
  rw [State.atTerminal, ← State.cursor_div, State.afterEvent_cursor awaitsC.run (by decide),
    State.afterEvent_cursor awaitsB.run (by decide), State.afterEvent_chA_cursor h.run inside] at terminal
  simp only [State.afterEvent_cfg] at terminal
  omega

/-! ## Periods one after another -/

/-- `n` periods are over (R163): the cursor has passed `n` bits and, short of the terminal count, the next period may
begin. -/
structure State.AtBit (s : State) (n : Nat) : Prop where
  cursor : s.cursor = n
  legal : s.cfg.legal = true
  awaits : n < 8 * s.cfg.terminalCount → s.Awaits .chA

theorem State.AtBit.inside {s : State} {n : Nat} (h : s.AtBit n) (short : n < 8 * s.cfg.terminalCount) :
    s.byteIndex.toNat < imageSize := by
  obtain ⟨-, le_imageSize⟩ := Params.legal_bounds h.legal
  rw [← State.cursor_div, h.cursor]
  omega

theorem State.AtBit.afterPeriod {s : State} {n : Nat} (h : s.AtBit n) (short : n < 8 * s.cfg.terminalCount) :
    s.afterPeriod.AtBit (n + 1) where
  cursor := by rw [State.afterPeriod_cursor (h.awaits short).run (h.inside short), h.cursor]
  legal := by simpa using h.legal
  awaits more := (h.awaits short).afterPeriod (h.inside short) (by simpa [h.cursor] using more)

/-- The induction over the periods: what each period carries on holds where they have run, and they take exactly their
moves. -/
theorem run_periods {motive : Nat → State → Prop}
    (carries : ∀ n u, u.AtBit n → n < 8 * u.cfg.terminalCount → motive n u → motive (n + 1) u.afterPeriod) (p : Nat)
    {s : State} {n : Nat} {rest : List Move} (start : s.AtBit n) (bound : n + p ≤ 8 * s.cfg.terminalCount)
    (agenda : s.agenda = periods p ++ rest) (base : motive n s) :
    ∃ t, Host.Core.run core (8 * p) s = .next t ∧ t.agenda = rest ∧ t.AtBit (n + p) ∧ motive (n + p) t := by
  induction p generalizing s n with
  | zero => exact ⟨s, rfl, agenda, start, base⟩
  | succ p ih =>
    have short : n < 8 * s.cfg.terminalCount := by omega
    rw [periods, List.append_assoc] at agenda
    have bound' : n + 1 + p ≤ 8 * s.afterPeriod.cfg.terminalCount := by
      rw [State.afterPeriod_cfg]
      omega
    obtain ⟨t, ran, left, atBit, carried⟩ := ih (start.afterPeriod short) bound'
      (State.afterPeriod_agenda agenda) (carries n s start short base)
    rw [Nat.add_right_comm] at atBit carried
    exact ⟨t, (run_period (8 * p) (start.awaits short) (start.inside short) agenda).trans ran, left, atBit, carried⟩

/-! ## What the periods emit -/

/-- What `n` periods from the state `s` have written to DATA, LATCH and CLOCK, with IMAGE as it was (R61, R159). -/
structure State.Emitted (s : State) (n : Nat) (t : State) : Prop where
  image : ∀ a, t.readImage a = s.readImage a
  data : lineWrites .data t.history
    = lineWrites .data s.history ++ (List.range n).map fun i => dataLevel (s.imageBit i)
  latch : (lineWrites .latch t.history).length = (lineWrites .latch s.history).length + n
  clock : lineWrites .clock t.history
    = lineWrites .clock s.history ++ (List.replicate n [Level.low, Level.high]).flatten

theorem State.Emitted.zero (s : State) : s.Emitted 0 s where
  image _ := rfl
  data := by simp
  latch := rfl
  clock := by simp

theorem State.Emitted.afterPeriod {s u : State} {n : Nat} (atBit : u.AtBit n)
    (short : n < 8 * u.cfg.terminalCount) (h : s.Emitted n u) : s.Emitted (n + 1) u.afterPeriod := by
  have writes := fun id => State.afterPeriod_writes (id := id) (atBit.awaits short).run (atBit.inside short)
  have bit : u.evtBit = s.imageBit n := by
    rw [State.evtBit_eq_imageBit, atBit.cursor, State.imageBit, h.image, State.imageBit]
  obtain ⟨_, data⟩ := writes .data (by decide)
  obtain ⟨_, latch⟩ := writes .latch (by decide)
  obtain ⟨_, clock⟩ := writes .clock (by decide)
  exact {
    image := fun a => (u.afterPeriod_readImage a).trans (h.image a)
    data := by simp [data, lineWrites, h.data, bit, List.range_succ]
    latch := by simp [latch, lineWrites, h.latch, Nat.add_assoc]
    clock := by simp [clock, lineWrites, h.clock, List.replicate_succ'] }

/-- DATA carries the bit inverted (R159). -/
theorem dataLevel_bit (b : Byte) (i : Nat) :
    dataLevel ((b >>> i) &&& 1) = if b.getLsbD i then .low else .high := by
  rw [show (1 : Byte) = 1#8 from rfl, BitVec.and_one_eq_setWidth_ofBool_getLsbD, BitVec.getLsbD_ushiftRight,
    Nat.add_zero]
  cases b.getLsbD i <;> rfl

/-- Settles O60: each period emits the bit that the cursor stands at, latches once and clocks LOW, HIGH. -/
theorem periodsEmitTheImageBitsInOrder : Obligations.PeriodsEmitTheImageBitsInOrder := by
  intro s p rest start byteIndex bitIndex bound agenda
  have atStart : s.AtBit 0 :=
    { cursor := by simp [State.cursor, byteIndex, bitIndex]
      legal := start.awaits.legal
      awaits := fun _ => start.awaits }
  obtain ⟨t, ran, -, -, emitted⟩ := run_periods (motive := s.Emitted) (fun _ _ => State.Emitted.afterPeriod) p atStart
    (by simpa using bound) agenda (State.Emitted.zero s)
  rw [Nat.zero_add] at emitted
  obtain ⟨-, data, latch, clock⟩ := emitted
  simp only [State.imageBit, dataLevel_bit] at data
  exact ⟨t, ran, data, latch, clock⟩

end Sys2Proof.Machine

namespace Sys2Proof

/-! # The encoding: the round trip -/

open Laws.RoundTrip in
/-- Every operation has its round trip. -/
theorem roundTrip (i : Instr) : Statement i :=
  match i with
  | .lineAppend b => lineAppend b
  | .lineEnd => lineEnd
  | .cmdTransfer => cmdTransfer
  | .cmdBoot3wb => cmdBoot3wb
  | .cmdOther line => cmdOther line
  | .dataByte b => dataByte b
  | .dataLast b => dataLast b
  | .fgSend => fgSend
  | .decideBoot => decideBoot
  | .arm => arm
  | .start => start
  | .waitRun => waitRun
  | .waitIdle => waitIdle
  | .evtA => evtA
  | .evtB => evtB
  | .evtC => evtC
  | .evtD => evtD
  | .dSend => dSend
  | .evtIgnored ch => evtIgnored ch
  | .setLine id level => setLine id level
  | .timerFire => timerFire
  | .timerConfigure p => timerConfigure p
  | .timerArmChannel ch off clr => timerArmChannel ch off clr
  | .timerEnable => timerEnable
  | .timerDisable => timerDisable
  | .dispatch ch => dispatch ch
  | .faultFraming => faultFraming
  | .faultRxOverrun b => faultRxOverrun b
  | .faultFifo => faultFifo
  | .faultCmdOverrun b => faultCmdOverrun b
  | .faultImageOob => faultImageOob

/-- Settles O1: each constructor's round trip. -/
theorem decodeOfEncodeIsIdentity : Obligations.DecodeOfEncodeIsIdentity :=
  fun i rest wf => roundTrip i wf rest

/-- Settles O3: each word is one that stands beside the decoder. -/
theorem specWordsDecode : Obligations.SpecWordsDecode :=
  ⟨decode_word_line_end, decode_word_line_append, decode_word_cmd_transfer, decode_word_cmd_boot3wb,
    decode_word_evt_c, decode_word_set_line, decode_word_data_byte, decode_word_arm, decode_word_fault_rx_overrun⟩

/-! # Completed lines -/

theorem newline_mem_of_isLine {line : List Byte} (h : isLine line = true) : newline ∈ line := by
  induction line with
  | nil => cases h
  | cons b tl ih =>
    by_cases hb : b = newline
    · exact hb ▸ List.mem_cons_self
    · rw [isLine, if_neg hb] at h
      exact List.mem_cons_of_mem b (ih h)

/-- What is split off is a line, and nothing is lost (R81). -/
theorem splitLine_eq_some {bytes line rest : List Byte} (h : splitLine bytes = some (line, rest)) :
    isLine line = true ∧ bytes = line ++ rest := by
  induction bytes generalizing line with
  | nil => cases h
  | cons b tl ih =>
    by_cases hb : b = newline
    · rw [splitLine, if_pos hb] at h
      cases h
      exact ⟨if_pos hb, rfl⟩
    · rw [splitLine, if_neg hb] at h
      cases split : splitLine tl with
      | none => rw [split] at h; cases h
      | some p =>
        rw [split] at h
        cases h
        obtain ⟨ends, whole⟩ := ih split
        exact ⟨by rw [isLine, if_neg hb, ends], by rw [whole, List.cons_append]⟩

/-- The lengths that `classify` also tests are those of the literals (R85). -/
theorem classify_eq (line : List Byte) :
    classify line =
      if line = transferLiteral then .transfer else if line = boot3wbLiteral then .boot3wb else .other := by
  by_cases transfer : line = transferLiteral
  · rw [if_pos transfer, (Machine.classify_transfer_iff line).2 transfer]
  · rw [if_neg transfer]
    by_cases boot : line = boot3wbLiteral
    · rw [if_pos boot, (Machine.classify_boot3wb_iff line).2 boot]
    · rw [if_neg boot, classify_other (by simp [notLiteral, transfer, boot])]

/-- The operation of a completed line (R85). -/
def lineInstr (line : List Byte) : Instr :=
  if line = transferLiteral then .cmdTransfer
  else if line = boot3wbLiteral then .cmdBoot3wb else .cmdOther line

theorem encode_lineInstr (line : List Byte) : encode (lineInstr line) = line := by
  unfold lineInstr
  split
  · next transfer => exact transfer.symm
  · split
    · next boot => exact boot.symm
    · rfl

theorem lineInstr_wellFormed {line : List Byte} (ends : isLine line = true) (fits : lineFits line = true) :
    (lineInstr line).wellFormed = true := by
  unfold lineInstr
  split
  · rfl
  · next transfer =>
    split
    · rfl
    · next boot => simp [Instr.wellFormed, notLiteral, ends, fits, transfer, boot]

/-- A line of legal length decodes to its operation, whatever follows. -/
theorem decodeLine_append {line : List Byte} (rest : List Byte) (ends : isLine line = true)
    (fits : lineFits line = true) : decodeLine (line ++ rest) = .ok (lineInstr line) rest := by
  rw [decodeLine, splitLine_append ends]
  simp only [fits, if_true, classify_eq, lineInstr]
  by_cases transfer : line = transferLiteral
  · simp only [if_pos transfer]
  · by_cases boot : line = boot3wbLiteral
    · simp only [if_neg transfer, if_pos boot]
    · simp only [if_neg transfer, if_neg boot]

/-- The decoding of a line finds a whole line of legal length, or rejects the bytes. -/
theorem decodeLine_cases (bytes : List Byte) :
    (∃ r, decodeLine bytes = .reject r)
      ∨ ∃ line rest, bytes = line ++ rest ∧ isLine line = true ∧ lineFits line = true
          ∧ decodeLine bytes = .ok (lineInstr line) rest := by
  cases split : splitLine bytes with
  | none => exact .inl ⟨.unterminatedLine, by rw [decodeLine, split]⟩
  | some p =>
    obtain ⟨line, rest⟩ := p
    obtain ⟨ends, rfl⟩ := splitLine_eq_some split
    by_cases fits : lineFits line = true
    · exact .inr ⟨line, rest, rfl, ends, fits, decodeLine_append rest ends fits⟩
    · exact .inl ⟨.overlongLine, by simp only [decodeLine, split, if_neg fits]⟩

/-- Settles O4: a line of legal length decodes to its operation, and bytes that decode have their newline within
CMD_CAP. -/
theorem linesAreClassifiedExactly : Obligations.LinesAreClassifiedExactly := by
  refine ⟨fun line rest ends fits => ?_, fun bytes absent => ?_⟩
  · have decoded := decodeLine_append rest ends (decide_eq_true fits)
    rw [decode, decoded, lineInstr]
    split
    · rfl
    · split <;> rfl
  · obtain rejected | ⟨line, rest, rfl, ends, fits, -⟩ := decodeLine_cases bytes
    · exact rejected
    · rw [List.take_append, List.take_of_length_le (of_decide_eq_true fits)] at absent
      exact absurd (List.mem_append_left _ (newline_mem_of_isLine ends)) absent

/-! # What decodes -/

/-- The operation `i` has an encoding, and `bytes` begins with it. -/
def Instr.Encoded (i : Instr) (bytes rest : List Byte) : Prop :=
  i.wellFormed = true ∧ bytes = encode i ++ rest

theorem channelByte_of_channelOfByte {b : Byte} {ch : Chan} (h : channelOfByte b = some ch) : b = channelByte ch := by
  unfold channelOfByte at h
  repeat' split at h
  all_goals cases h
  all_goals assumption

theorem lineWriteByte_of_lineWriteOfByte {b : Byte} {id : LineId} {level : Level}
    (h : lineWriteOfByte b = some (id, level)) : b = lineWriteByte id level := by
  unfold lineWriteOfByte at h
  repeat' split at h
  all_goals cases h
  all_goals assumption

theorem eventInstr_wellFormed (running inImage : Bool) (ch : Chan) :
    (eventInstr running inImage ch).wellFormed = true := by
  cases running <;> cases ch <;> cases inImage <;> rfl

theorem encode_eventInstr (running inImage : Bool) (ch : Chan) :
    encode (eventInstr running inImage ch) = [channelByte ch] := by
  cases running <;> cases ch <;> cases inImage <;> rfl

/-- A control operation has no bytes (R80). -/
theorem encode_control (c : Control) : encode c.instr = [] := by cases c <;> rfl

theorem decode_lineByte_encoded {room : Bool} {bytes rest : List Byte} {i : Instr}
    (h : decode (.lineByte room) bytes = .ok i rest) : i.Encoded bytes rest := by
  cases bytes with
  | nil => cases h
  | cons b tl =>
    cases room with
    | false => cases h; exact ⟨rfl, rfl⟩
    | true =>
      by_cases hb : b = newline
      · simp only [decode, if_true, if_pos hb] at h
        cases h
        exact ⟨rfl, congrArg (· :: rest) hb⟩
      · simp only [decode, if_true, if_neg hb] at h
        cases h
        exact ⟨decide_eq_true hb, rfl⟩

theorem decodeLine_encoded {bytes rest : List Byte} {i : Instr} (h : decodeLine bytes = .ok i rest) :
    i.Encoded bytes rest := by
  obtain ⟨r, rejected⟩ | ⟨line, rest', rfl, ends, fits, decoded⟩ := decodeLine_cases bytes
  · rw [rejected] at h
    cases h
  · rw [decoded] at h
    cases h
    exact ⟨lineInstr_wellFormed ends fits, by rw [encode_lineInstr]⟩

theorem decode_rawByte_encoded {last : Bool} {bytes rest : List Byte} {i : Instr}
    (h : decode (.rawByte last) bytes = .ok i rest) : i.Encoded bytes rest := by
  cases bytes with
  | nil => cases h
  | cons b tl => cases last <;> cases h <;> exact ⟨rfl, rfl⟩

theorem decode_event_encoded {running inImage : Bool} {bytes rest : List Byte} {i : Instr}
    (h : decode (.event running inImage) bytes = .ok i rest) : i.Encoded bytes rest := by
  cases bytes with
  | nil => cases h
  | cons b tl =>
    cases channel : channelOfByte b with
    | none => simp only [decode, channel] at h; cases h
    | some ch =>
      simp only [decode, channel] at h
      cases h
      refine ⟨eventInstr_wellFormed running inImage ch, ?_⟩
      rw [encode_eventInstr, channelByte_of_channelOfByte channel, List.singleton_append]

theorem decode_gpio_encoded {bytes rest : List Byte} {i : Instr} (h : decode .gpio bytes = .ok i rest) :
    i.Encoded bytes rest := by
  cases bytes with
  | nil => cases h
  | cons b tl =>
    cases write : lineWriteOfByte b with
    | none => simp only [decode, write] at h; cases h
    | some p =>
      obtain ⟨id, level⟩ := p
      simp only [decode, write] at h
      cases h
      exact ⟨rfl, congrArg (· :: rest) (lineWriteByte_of_lineWriteOfByte write)⟩

theorem decode_control_encoded {c : Control} {bytes rest : List Byte} {i : Instr}
    (h : decode (.control c) bytes = .ok i rest) : i.Encoded bytes rest := by
  by_cases wf : c.instr.wellFormed = true
  · simp only [decode, if_pos wf] at h
    cases h
    exact ⟨wf, by rw [encode_control, List.nil_append]⟩
  · simp only [decode, if_neg wf] at h
    cases h

theorem decode_transport_encoded {x : XportCond} {bytes rest : List Byte} {i : Instr}
    (h : decode (.transport x) bytes = .ok i rest) : i.Encoded bytes rest := by
  cases x with
  | framing => cases h; exact ⟨rfl, rfl⟩
  | fifo => cases h; exact ⟨rfl, rfl⟩
  | rxOverrun =>
    cases bytes with
    | nil => cases h
    | cons b tl => cases h; exact ⟨rfl, rfl⟩

/-- Settles O2: one inversion for each selector. -/
theorem decodedIsWellFormedAndEncodesBack : Obligations.DecodedIsWellFormedAndEncodesBack := by
  intro sel bytes rest i h
  cases sel with
  | lineByte room => exact decode_lineByte_encoded h
  | lineDone => exact decodeLine_encoded h
  | rawByte last => exact decode_rawByte_encoded h
  | event running inImage => exact decode_event_encoded h
  | gpio => exact decode_gpio_encoded h
  | control c => exact decode_control_encoded h
  | transport x => exact decode_transport_encoded h

end Sys2Proof

namespace Sys2Proof.Machine

/-! # The received byte -/

theorem fetchForeground_lineByte {s : State} {b : Byte} {rest : List Byte} (ready : s.lineReady)
    (head : s.rxq = b :: rest) (room : s.cmdLen.toNat < cmdCap) :
    fetchForeground s = .unit (.lineByte true) [b] := by
  obtain ⟨free, phase, tx⟩ := ready
  cases hq : s.seq with
  | rxCmd1 | rxCmd2 => simp [fetchForeground, free, hq, tx, head, room, Nat.le_of_lt room]
  | _ => simp [hq, Seq.isLine] at phase

theorem fetchForeground_rawByte {s : State} {b : Byte} {rest : List Byte} (ready : s.rawReady)
    (head : s.rxq = b :: rest) (room : s.dataCnt.toNat < imageSize) :
    fetchForeground s = .unit (.rawByte (decide (s.dataCnt.toNat = imageSize - 1))) [b] := by
  obtain ⟨free, phase, tx⟩ := ready
  simp [fetchForeground, free, phase, tx, head, room]

theorem decode_lineByte_room (b : Byte) (rest : List Byte) :
    decode (.lineByte true) (b :: rest) = .ok (if b = newline then .lineEnd else .lineAppend b) rest := by
  by_cases hb : b = newline
  · simp only [decode, if_true, if_pos hb]
  · simp only [decode, if_true, if_neg hb]

/-- Past the reception no step of the foreground reads RXQ (R83). -/
theorem StepCase.rxq_eq_of_not_reception {s t : State} (h : StepCase s .fg t) (past : s.seq.isReception = false) :
    t.rxq = s.rxq := by
  have notLine : ¬ s.lineReady := fun ready => by
    obtain ⟨-, phase, -⟩ := ready
    simp [isLine_isReception phase] at past
  have notRaw : ¬ s.rawReady := fun ready => by
    obtain ⟨-, phase, -⟩ := ready
    simp [phase, Seq.isReception] at past
  cases h with
  | lineAppend b rest ready => exact absurd ready notLine
  | lineEnd rest ready => exact absurd ready notLine
  | cmdOverrun b rest ready => exact absurd ready notLine
  | dataByte b rest ready => exact absurd ready notRaw
  | dataLast b rest ready => exact absurd ready notRaw
  | _ => simp

/-- Settles O15: what the foreground fetches by phase, and past the reception every foreground step's frame. -/
theorem receivedByteIsDecodedByPhase : Obligations.ReceivedByteIsDecodedByPhase := by
  intro s legal mv
  refine ⟨fun b rest ready head room => ?_, fun b rest ready head before => ?_, fun b rest ready head last => ?_,
    fun past t h => ?_⟩
  · exact step_of_unit legal mv (fetchForeground_lineByte ready (by simpa using head) (by simpa using room))
      (decode_lineByte_room b [])
  · have fetched := fetchForeground_rawByte ready (by simpa using head) (by rw [State.afterMove_dataCnt]; omega)
    rw [State.afterMove_dataCnt, decide_eq_false (Nat.ne_of_lt before)] at fetched
    exact step_of_unit legal mv fetched rfl
  · have fetched := fetchForeground_rawByte ready (by simpa using head)
      (by rw [State.afterMove_dataCnt, last]; decide)
    rw [State.afterMove_dataCnt, decide_eq_true last] at fetched
    exact step_of_unit legal mv fetched rfl
  · obtain ⟨-, change⟩ := step_cases h
    rw [mv] at change
    simpa using change.rxq_eq_of_not_reception (by simpa using past)

/-! # The completion message, byte by byte -/

/-- D_SEND with room appends the message's next byte (R156). -/
theorem execDSend_room {s : State} {k : Fin 18} {b : Byte} (ok : s.fault = .noFault) (progress : s.handler = some k)
    (byte : bootloadSuccess[k.val]? = some b) (room : s.txRoom) :
    execDSend s = .next { s.txByte b with handler := some (k + 1) } := by
  simp [execDSend, progress, ok, byte, room]

/-- D_SEND(17) ends the sequence (R156). -/
theorem execDSend_end {s : State} (ok : s.fault = .noFault) (progress : s.handler = some 17) :
    execDSend s = .next { s with tmrEn := false, serState := .done, handler := none } := by
  rw [execDSend, progress]
  exact if_pos ok

/-- A move of the interrupt context with a handler in progress is a step of D_SEND, whichever channel it names. -/
theorem step_dSend {s : State} {ch : Chan} {rest : List Move} (legal : s.cfg.legal = true) (ok : s.fault = .noFault)
    (progress : s.handler ≠ none) (agenda : s.agenda = .isr ch :: rest) :
    step s = execDSend { s with agenda := rest } := by
  have mv : s.move = .isr ch := by simp only [State.move, agenda]
  have taken : s.afterMove = { s with agenda := rest } := by simp only [State.afterMove, agenda]
  obtain ⟨-, -, dSend⟩ := step_handler legal mv ok
  rw [dSend progress, taken]
  rfl

/-- From D_SEND(k) with `n` bytes left and room for them, `n + 1` moves send them and end the sequence. -/
theorem run_completes {ch : Chan} {rest : List Move} (n : Nat) :
    ∀ {s : State} {k : Fin 18}, s.cfg.legal = true → s.fault = .noFault → s.handler = some k → k.val + n = 17 →
      s.txq.length + n ≤ s.cfg.platform.txCap → s.agenda = List.replicate (n + 1) (.isr ch) ++ rest →
      Host.Core.run core (n + 1) s = .next { s with
        txq := s.txq ++ bootloadSuccess.drop k, tmrEn := false, serState := .done, handler := none
        agenda := rest } := by
  have len : bootloadSuccess.length = 17 := rfl
  induction n with
  | zero =>
    intro s k legal ok progress left room agenda
    obtain rfl : k = 17 := Fin.ext left
    have ended := (step_dSend legal ok (by simp [progress]) agenda).trans
      (execDSend_end (s := { s with agenda := rest }) ok progress)
    rw [Core.run_succ_of_step 0 ended, List.drop_eq_nil_of_le (by omega), List.append_nil]
    rfl
  | succ n ih =>
    intro s k legal ok progress left room agenda
    have hk : k.val < bootloadSuccess.length := by omega
    have index : (k + 1).val = k.val + 1 := Fin.val_add_one_of_lt (Fin.lt_def.2 (by rw [Fin.val_last]; omega))
    have hroom : s.txRoom := Nat.lt_of_lt_of_le (by omega) room
    have sent := (step_dSend legal ok (by simp [progress]) agenda).trans
      (execDSend_room (s := { s with agenda := List.replicate (n + 1) (.isr ch) ++ rest }) ok progress
        (List.getElem?_eq_getElem hk) hroom)
    have room' : (s.txq ++ [bootloadSuccess[k.val]]).length + n ≤ s.cfg.platform.txCap := by
      rw [List.length_append, List.length_singleton]
      omega
    rw [Core.run_succ_of_step (n + 1) sent, List.drop_eq_getElem_cons hk, List.append_cons, ← index]
    exact ih (k := k + 1) legal ok rfl (by omega) room' rfl

/-- Settles O27: the text is the completion message, sent from its first byte on. -/
theorem completionSequenceReachesDone : Obligations.CompletionSequenceReachesDone :=
  fun _ _ _ legal ok progress room agenda => run_completes 17 legal ok progress rfl room agenda

end Sys2Proof.Machine

namespace Sys2Proof.Machine

/-! # The byte steps of the reception -/

theorem State.popRx_of_head {s : State} {b : Byte} {rest : List Byte} (head : s.rxq = b :: rest) :
    s.popRx = { s with rxq := rest } := by
  rw [State.popRx, head, List.tail_cons]

theorem head?_eq_of_cons {q rest : List Byte} {b : Byte} (head : q = b :: rest) : q.head? = some b := by
  rw [head, List.head?_cons]

/-- LINE_APPEND, where it is enabled (R101). -/
theorem exec_lineAppend {s : State} {b : Byte} {rest : List Byte} (ready : s.lineReady) (head : s.rxq = b :: rest)
    (hb : b ≠ newline) (room : s.cmdLen.toNat < cmdCap) :
    exec (.lineAppend b) s = .next { s with
      rxq := rest, cmd := Memory.write s.cmd s.cmdLen.toNat b, cmdLen := s.cmdLen + 1 } := by
  have enabled : exec (.lineAppend b) s = .next { s.popRx.writeCmd s.cmdLen.toNat b with cmdLen := s.cmdLen + 1 } :=
    if_pos ⟨ready, head?_eq_of_cons head, hb, room⟩
  rw [enabled, State.popRx_of_head head]
  rfl

/-- DATA_BYTE, where it is enabled (R107). -/
theorem exec_dataByte {s : State} {b : Byte} {rest : List Byte} (ready : s.rawReady) (head : s.rxq = b :: rest)
    (before : s.dataCnt.toNat < imageSize - 1) :
    exec (.dataByte b) s = .next { s with
      rxq := rest, image := Memory.write s.image s.dataCnt.toNat b, dataCnt := s.dataCnt + 1 } := by
  have enabled : exec (.dataByte b) s = .next { s.popRx.writeImage s.dataCnt.toNat b with dataCnt := s.dataCnt + 1 } :=
    if_pos ⟨ready, head?_eq_of_cons head, before⟩
  rw [enabled, State.popRx_of_head head]
  rfl

/-- DATA_LAST, where it is enabled (R108). -/
theorem exec_dataLast {s : State} {b : Byte} {rest : List Byte} (ready : s.rawReady) (head : s.rxq = b :: rest)
    (last : s.dataCnt.toNat = imageSize - 1) :
    exec (.dataLast b) s = .next { s with
      rxq := rest, image := Memory.write s.image (imageSize - 1) b, dataCnt := BitVec.ofNat 17 imageSize
      fgTx := some ⟨.dataAck, 0⟩ } := by
  have enabled : exec (.dataLast b) s = .next ({ s.popRx.writeImage (imageSize - 1) b with
      dataCnt := BitVec.ofNat 17 imageSize }.beginSend .dataAck) :=
    if_pos ⟨ready, head?_eq_of_cons head, last⟩
  rw [enabled, State.popRx_of_head head]
  rfl

/-- FAULT_CMD_OVERRUN, where it is enabled (R111): the byte is popped, and the rest is the one exception entry's. -/
theorem exec_faultCmdOverrun {s : State} {b : Byte} {rest : List Byte} (ready : s.lineReady)
    (head : s.rxq = b :: rest) (full : s.cmdLen.toNat = cmdCap) :
    exec (.faultCmdOverrun b) s = .next ({ s with rxq := rest }.raiseFault .cmdOverrun) := by
  rw [← State.popRx_of_head head]
  exact if_pos ⟨ready, head?_eq_of_cons head, full⟩

theorem State.cmdLen_succ_toNat {s : State} (room : s.cmdLen.toNat < cmdCap) :
    (s.cmdLen + 1).toNat = s.cmdLen.toNat + 1 := by
  simp only [cmdCap] at room
  bv_omega

theorem State.dataCnt_succ_toNat {s : State} (before : s.dataCnt.toNat < imageSize - 1) :
    (s.dataCnt + 1).toNat = s.dataCnt.toNat + 1 := by
  simp only [imageSize] at before
  bv_omega

/-- Settles O6: one write to CMD, at an index that CMD_LEN's width can pass. -/
theorem lineAppendStoresAtReadCursor : Obligations.LineAppendStoresAtReadCursor := by
  intro s b rest ready head hb room
  have read := State.readCmd_of_write (s := s) (i := s.cmdLen.toNat) (v := b)
    (t := { s with rxq := rest, cmd := Memory.write s.cmd s.cmdLen.toNat b, cmdLen := s.cmdLen + 1 }) rfl rfl
  exact ⟨_, exec_lineAppend ready head hb room, rfl, State.cmdLen_succ_toNat room, (read _).trans (if_pos rfl),
    fun a other => (read a).trans (if_neg other), State.readImage_congr rfl rfl⟩

/-- Settles O9: one write to IMAGE, at an index that DATA_CNT's width can pass. -/
theorem dataByteStoresAtNextOffset : Obligations.DataByteStoresAtNextOffset := by
  intro s b rest ready head before
  have read := State.readImage_of_write (s := s) (i := s.dataCnt.toNat) (v := b)
    (t := { s with rxq := rest, image := Memory.write s.image s.dataCnt.toNat b, dataCnt := s.dataCnt + 1 }) rfl rfl
  exact ⟨_, exec_dataByte ready head before, rfl, State.dataCnt_succ_toNat before, (read _).trans (if_pos rfl),
    fun a other => (read a).trans (if_neg other), State.readCmd_congr rfl rfl⟩

/-- Settles O10: one write to IMAGE at its last index; IMAGE_SIZE fits in DATA_CNT. -/
theorem dataLastStoresAndAcknowledges : Obligations.DataLastStoresAndAcknowledges := by
  intro s b rest ready head last
  have read := State.readImage_of_write (s := s) (i := imageSize - 1) (v := b)
    (t := { s with
      rxq := rest, image := Memory.write s.image (imageSize - 1) b, dataCnt := BitVec.ofNat 17 imageSize
      fgTx := some ⟨.dataAck, 0⟩ }) rfl rfl
  exact ⟨_, exec_dataLast ready head last, rfl, rfl, (read _).trans (if_pos rfl),
    fun a other => (read a).trans (if_neg other), State.readCmd_congr rfl rfl⟩

/-! # The end of a line and its command -/

/-- LINE_END, where it is enabled (R102). -/
theorem exec_lineEnd {s : State} {rest : List Byte} (ready : s.lineReady) (head : s.rxq = newline :: rest)
    (room : s.cmdLen.toNat < cmdCap) :
    exec .lineEnd s =
      .next (s.storeNewline.command (classify (s.storeNewline.lineBytes (s.cmdLen.toNat + 1)))) :=
  if_pos ⟨ready, head?_eq_of_cons head, room⟩

/-- A command performed on its own in a line phase has its effect and compares nothing (R103 to R105). -/
theorem exec_command {s : State} (ready : s.lineReady) (line : List Byte) :
    exec .cmdTransfer s = .next (s.command .transfer) ∧ exec .cmdBoot3wb s = .next (s.command .boot3wb)
      ∧ exec (.cmdOther line) s = .next (s.command .other) :=
  ⟨if_pos ready, if_pos ready, if_pos ready⟩

/-- The command that a completed line carries out is the one performed on its own (R85, R102). -/
theorem exec_command_of_line {s : State} (ready : s.lineReady) (line : List Byte) :
    (line = transferLiteral → exec .cmdTransfer s = .next (s.command (classify line)))
      ∧ (line = boot3wbLiteral → exec .cmdBoot3wb s = .next (s.command (classify line)))
      ∧ (line ≠ transferLiteral → line ≠ boot3wbLiteral →
          exec (.cmdOther line) s = .next (s.command (classify line))) := by
  obtain ⟨transfer, boot3wb, other⟩ := exec_command ready line
  refine ⟨fun h => ?_, fun h => ?_, fun notTransfer notBoot => ?_⟩
  · rwa [(classify_transfer_iff line).2 h]
  · rwa [(classify_boot3wb_iff line).2 h]
  · rwa [classify_eq, if_neg notTransfer, if_neg notBoot]

theorem State.command_sameMemory (s : State) (k : LineKind) : SameMemory s (s.command k) :=
  ⟨State.readImage_congr (s.command_image k) (s.command_resets k),
    State.readCmd_congr (s.command_cmd k) (s.command_resets k)⟩

/-- Settles O7: `u` is the state that stores the newline, and the line's command runs from it. -/
theorem lineEndCarriesOutItsLine : Obligations.LineEndCarriesOutItsLine := by
  intro s rest ready head room
  have frame : s.storeNewline = { s with rxq := rest, cmd := s.storeNewline.cmd, cmdLen := 0 } := by
    rw [State.storeNewline, State.popRx_of_head head]
    rfl
  have read := State.readCmd_of_write (s := s) s.storeNewline_cmd s.storeNewline_resets
  exact ⟨s.storeNewline, _, exec_lineEnd ready head room, frame, (read _).trans (if_pos rfl),
    fun a other => (read a).trans (if_neg other), State.readImage_congr rfl rfl, State.command_sameMemory _ _,
    exec_command_of_line (s := s.storeNewline) ready (s.storeNewline.lineBytes _)⟩

/-- The phase after a reception phase (R131). -/
theorem nextPhase_of_isReception {q : Seq} (phase : q.isReception = true) :
    nextPhase q = if q = .rxCmd1 then .rxData else if q = .rxData then .rxCmd2 else .deciding := by
  cases q with
  | rxCmd1 | rxData | rxCmd2 => rfl
  | _ => cases phase

/-- The phase after a line phase (R131). -/
theorem nextPhase_of_isLine {q : Seq} (phase : q.isLine = true) :
    nextPhase q = if q = .rxCmd1 then .rxData else .deciding := by
  cases q with
  | rxCmd1 | rxCmd2 => rfl
  | _ => cases phase

/-- Settles O8: the three commands' effects, the last by the phase after a line phase. -/
theorem commandsReplyAndSetTheFlag : Obligations.CommandsReplyAndSetTheFlag := by
  intro s line ready
  have ⟨_, phase, _⟩ := ready
  rw [← nextPhase_of_isLine phase]
  exact exec_command ready line

/-- Settles O11: FG_SEND with room sends byte `k`, and the bookkeeping tells the last byte from the ones before. -/
theorem fgSendHandsOverOneByte : Obligations.FgSendHandsOverOneByte := by
  intro s m k b free phase tx byte room
  obtain ⟨hk, rfl⟩ := List.getElem?_eq_some_iff.1 byte
  have sent : exec .fgSend s = .next ((s.txByte m.bytes[k]).sentByte m k) := execFgSend_room free phase tx hk room
  rw [← nextPhase_of_isReception phase, sent, State.sentByte]
  refine ⟨fun last => ?_, fun more => ?_⟩
  · rw [if_pos last]
    rfl
  · rw [if_neg (Nat.ne_of_lt more)]
    rfl

/-! # The command overrun -/

theorem fetchForeground_cmdOverrun {s : State} {b : Byte} {rest : List Byte} (ready : s.lineReady)
    (head : s.rxq = b :: rest) (full : s.cmdLen.toNat = cmdCap) :
    fetchForeground s = .unit (.lineByte false) [b] := by
  obtain ⟨free, phase, tx⟩ := ready
  cases hq : s.seq with
  | rxCmd1 | rxCmd2 => simp [fetchForeground, free, hq, tx, head, full]
  | _ => simp [hq, Seq.isLine] at phase

/-- Settles O14: the operation's full next state, and its selection whatever the byte is. -/
theorem commandOverrunFaults : Obligations.CommandOverrunFaults :=
  ⟨fun _ _ _ ready head full => exec_faultCmdOverrun ready head full,
    fun _ _ _ legal mv ready head full => step_of_unit legal mv
      (fetchForeground_cmdOverrun ready (by simpa using head) (by simpa using full)) rfl⟩

/-! # The causes of the faults -/

/-- The move and the condition from which a step can end with each fault (R111, R201, R203). -/
def FaultCause (s : State) (m : Move) : FaultCode → Prop
  | .noFault => True
  | .xportFraming => m = .framing
  | .xportOverrun => ∃ b, m = .push b ∧ s.cfg.platform.rxCap ≤ s.rxq.length
  | .xportFifo => m = .fifo
  | .cmdOverrun => m = .fg ∧ s.seq.isLine = true ∧ s.cmdLen.toNat = cmdCap ∧ s.rxq ≠ []
  | .imageOob => m = .isr .chA ∧ s.serState = .running ∧ imageSize ≤ s.byteIndex.toNat

theorem FaultCause.of_noFault {s : State} {m : Move} {code : FaultCode} (ok : code = .noFault) :
    FaultCause s m code := by
  rw [ok]
  trivial

/-- The causes do not read what taking a move changes. -/
theorem FaultCause.afterMove_iff {s : State} {m : Move} {code : FaultCode} :
    FaultCause s.afterMove m code ↔ FaultCause s m code := by
  cases code <;> simp [FaultCause]

/-- The handler keeps FAULT, but channel A's while RUNNING with the cursor outside IMAGE (R203). -/
theorem State.runHandler_fault (s : State) (ch : Chan) :
    (s.runHandler ch).fault = s.fault
      ∨ ((s.runHandler ch).fault = .imageOob ∧ ch = .chA ∧ s.serState = .running
          ∧ imageSize ≤ s.byteIndex.toNat) := by
  obtain ⟨-, h⟩ | ⟨run, hch, h⟩ | ⟨-, -, h⟩ | ⟨-, -, h⟩ | ⟨-, -, h⟩ := s.runHandler_cases ch
  · exact .inl (by rw [h])
  · obtain ⟨outside, ha⟩ | ⟨-, ha⟩ := s.evtABody_cases
    · exact .inr ⟨by rw [h, ha, State.raiseFault_fault], hch, run, outside⟩
    · exact .inl (by simp [h, ha])
  · exact .inl (by simp [h])
  · exact .inl (by simp [h])
  · exact .inl (by simp [h])

theorem StepCase.faultCause {s t : State} {m : Move} (h : StepCase s m t) (ok : s.fault = .noFault) :
    FaultCause s m t.fault := by
  cases h with
  | cmdOverrun b rest ready head full =>
    obtain ⟨-, phase, -⟩ := ready
    exact ⟨rfl, phase, full, by simp [head]⟩
  | overrun b _ full => exact ⟨b, rfl, Nat.not_lt.1 full⟩
  | framing | fifo => rfl
  | dispatch ch free pend =>
    obtain kept | ⟨raised, rfl, run, outside⟩ := (s.setPend ch false).runHandler_fault ch
    · exact .of_noFault (kept.trans ok)
    · rw [raised]
      exact ⟨rfl, run, outside⟩
  | reset => exact .of_noFault rfl
  | _ => exact .of_noFault (by simpa using ok)

/-- RXQ and the pushes to come, together, do not grow along a step (R259). -/
theorem rxq_pushesAlong_le {s t : State} (ok : s.fault = .noFault) (h : step s = .next t) (n : Nat) :
    t.rxq.length + pushesAlong n t ≤ s.rxq.length + pushesAlong (n + 1) s := by
  obtain ⟨-, change⟩ := step_cases h
  have grown := change.rxq_length_le
  rw [State.afterMove_rxq] at grown
  rw [pushesAlong_succ n ok h]
  omega

/-- Once the second line is read, H-QUIET leaves room in RXQ for every push. -/
theorem HQuiet.push_room {s t : State} {b : Byte} (quiet : HQuiet s) (read : s.secondLineRead = true)
    (ok : s.fault = .noFault) (h : step s = .next t) (mv : s.move = .push b) : s.rxRoom := by
  have first := quiet read 1
  rw [pushesAlong_succ 0 ok h, mv, pushesOf] at first
  rw [State.rxRoom]
  omega

/-- After the second line is read, a step keeps H-QUIET: a push leaves one fewer to come. -/
theorem HQuiet.kept_by_step {s t : State} (quiet : HQuiet s) (read : s.secondLineRead = true) (ok : s.fault = .noFault)
    (h : step s = .next t) : HQuiet t := by
  obtain ⟨-, change⟩ := step_cases h
  intro _ n
  rw [change.cfg_eq, State.afterMove_cfg]
  exact Nat.le_trans (rxq_pushesAlong_le ok h n) (quiet read (n + 1))

/-- Settles O37: each raising case of the step names its cause; under H-QUIET a push finds room. -/
theorem faultsHaveTheirCauses : Obligations.FaultsHaveTheirCauses := by
  have cause : ∀ s t : State, s.fault = .noFault → step s = .next t → FaultCause s s.move t.fault := by
    intro s t ok h
    obtain ⟨-, change⟩ := step_cases h
    exact FaultCause.afterMove_iff.1 (change.faultCause (by simpa using ok))
  refine ⟨cause, fun s t ok read quiet h => ⟨fun overrun => ?_, quiet.kept_by_step read ok h⟩⟩
  have raised := cause s t ok h
  rw [overrun] at raised
  obtain ⟨b, mv, full⟩ := raised
  exact absurd (quiet.push_room read ok h mv) (Nat.not_lt.2 full)

end Sys2Proof.Machine

namespace Sys2Proof.Machine

/-! # The sequence's invariant, by phase

Before START the timer is off, no handler is in progress and nothing is pending; SER_STATE goes with the phase. In
WAIT_RUN the serializer is RUNNING, or DONE with the timer and the handler stopped. -/

/-- The phases in which SER_STATE is IDLE: those before ARM, and WAIT_IDLE. -/
abbrev Seq.Unarmed (q : Seq) : Prop := q.isReception = true ∨ q = .deciding ∨ q = .doArm ∨ q = .waitIdle

/-- Nothing moves but the foreground: no fault, no handler, the timer off and no event pending. -/
abbrev State.Quiescent (s : State) : Prop := s.free ∧ s.tmrEn = false ∧ s.noPending

/-- SER_STATE in WAIT_RUN: after START, and after the completion sequence (R150). -/
abbrev State.Started (s : State) : Prop :=
  s.serState = .running ∨ (s.serState = .done ∧ s.tmrEn = false ∧ s.handler = none)

/-- What the sequence's invariant sees of a state. -/
def State.sequenceView (s : State) :
    Seq × Option Sending × SerState × Bool × PerChan Bool × Option (Fin 18) × FaultCode :=
  (s.seq, s.fgTx, s.serState, s.tmrEn, s.tmrPend, s.handler, s.fault)

theorem SequenceInv.congr {s t : State} (inv : SequenceInv s) (same : t.sequenceView = s.sequenceView) :
    SequenceInv t := by
  simp only [State.sequenceView, Prod.mk.injEq] at same
  obtain ⟨seq, tx, ser, en, pend, handler, fault⟩ := same
  obtain ⟨faulted, idle, armed, started, enabled, handling, sending, pending⟩ := inv
  constructor <;> simpa only [State.noPending, seq, tx, ser, en, pend, handler, fault]

/-- A quiescent state meets the invariant where SER_STATE goes with its phase and a message only with a reception. -/
theorem SequenceInv.of_quiescent {s : State} (quiet : s.Quiescent)
    (ser : (s.seq.Unarmed ∧ s.serState = .idle) ∨ (s.seq = .doStart ∧ s.serState = .armed))
    (sending : s.fgTx ≠ none → s.seq.isReception = true) : SequenceInv s := by
  obtain ⟨⟨ok, idle⟩, off, np⟩ := quiet
  have outside : s.seq ≠ .faulted ∧ s.seq ≠ .waitRun := by
    cases phase : s.seq <;> simp [phase, Seq.Unarmed, Seq.isReception] at ser ⊢
  exact {
    faulted := ⟨fun h => absurd h outside.1, fun h => absurd ok h⟩
    idle := fun h => by
      obtain ⟨-, hs⟩ | ⟨hq, -⟩ := ser
      · exact hs
      · simp [hq, Seq.isReception] at h
    armed := fun h => by
      obtain ⟨hq, -⟩ | ⟨-, hs⟩ := ser
      · simp [h, Seq.Unarmed, Seq.isReception] at hq
      · exact hs
    started := fun h => absurd h outside.2
    enabled := fun h => absurd (off.symm.trans h) (by decide)
    handling := fun h => absurd idle h
    sending := sending
    pending := fun _ _ => np }

theorem SequenceInv.of_waitRun {s : State} (phase : s.seq = .waitRun) (ok : s.fault = .noFault) (tx : s.fgTx = none)
    (started : s.Started) : SequenceInv s where
  faulted := by simp [phase, ok]
  idle h := by simp [phase, Seq.isReception] at h
  armed h := by simp [phase] at h
  started _ := started.imp_right And.left
  enabled en := ⟨phase, started.resolve_right fun ⟨_, off, _⟩ => absurd (off.symm.trans en) (by decide)⟩
  handling h := ⟨phase, started.resolve_right fun ⟨_, _, idle⟩ => h idle⟩
  sending h := absurd tx h
  pending h := absurd phase h

/-- A fault stops the foreground, the timer and the handler (R204), which is all that FAULTED asks. -/
theorem SequenceInv.of_raiseFault (s : State) {code : FaultCode} (hc : code ≠ .noFault) :
    SequenceInv (s.raiseFault code) where
  faulted := ⟨fun _ => hc, fun _ => rfl⟩
  idle h := by simp [Seq.isReception] at h
  armed h := nomatch h
  started h := nomatch h
  enabled h := nomatch h
  handling h := absurd rfl h
  sending h := absurd rfl h
  pending _ h := absurd rfl h

theorem SequenceInv.fgTx_eq_none {s : State} (inv : SequenceInv s) (phase : s.seq.isReception ≠ true) :
    s.fgTx = none :=
  Decidable.byContradiction fun sending => phase (inv.sending sending)

theorem SequenceInv.fgTx_eq_none_of_waitRun {s : State} (inv : SequenceInv s) (phase : s.seq = .waitRun) :
    s.fgTx = none :=
  inv.fgTx_eq_none (by rw [phase]; decide)

/-- Without a fault, only WAIT_RUN is not quiescent. -/
theorem SequenceInv.quiescent {s : State} (inv : SequenceInv s) (free : s.free) (phase : s.seq ≠ .waitRun) :
    s.Quiescent := by
  refine ⟨free, Bool.eq_false_iff.2 fun en => phase (inv.enabled en).1, inv.pending phase fun h => ?_⟩
  exact inv.faulted.1 h free.1

/-- In WAIT_RUN a serializer that no longer runs is DONE, its timer off and its handler over. -/
theorem SequenceInv.started_of_waitRun {s : State} (inv : SequenceInv s) (phase : s.seq = .waitRun) : s.Started := by
  refine (inv.started phase).imp_right fun done => ?_
  have halted : ¬ (s.seq = .waitRun ∧ s.serState = .running) := fun ⟨_, run⟩ => by simp [done] at run
  exact ⟨done, Bool.eq_false_iff.2 fun en => halted (inv.enabled en),
    Decidable.byContradiction fun h => halted (inv.handling h)⟩

/-- An event is pending only in WAIT_RUN, or after a fault. -/
theorem SequenceInv.waitRun_of_pending {s : State} {ch : Chan} (inv : SequenceInv s) (free : s.free)
    (pend : s.tmrPend.get ch = true) : s.seq = .waitRun :=
  Decidable.byContradiction fun phase => by
    obtain ⟨-, -, np⟩ := inv.quiescent free phase
    simp [(PerChan.eq_allFalse_iff _).1 np ch] at pend

/-! # What each step does to the sequence -/

theorem nextPhase_unarmed {q : Seq} (phase : q.isReception = true) : (nextPhase q).Unarmed := by
  cases q with
  | rxCmd1 | rxData => exact .inl rfl
  | rxCmd2 => exact .inr (.inl rfl)
  | _ => cases phase

theorem State.decidedPhase_unarmed (s : State) : s.decidedPhase.Unarmed := by
  cases boot : s.bootFlag <;> simp [State.decidedPhase, boot, Seq.Unarmed]

/-- In a reception phase the foreground may begin or go on with a message, or end the phase with none in progress. -/
theorem SequenceInv.reception {s t : State} (inv : SequenceInv s) (free : s.free) (phase : s.seq.isReception = true)
    (quiet : s.Quiescent → t.Quiescent) (ser : t.serState = s.serState)
    (seq : t.seq = s.seq ∨ (t.seq = nextPhase s.seq ∧ t.fgTx = none)) : SequenceInv t := by
  have notRun : s.seq ≠ .waitRun := fun h => by simp [h, Seq.isReception] at phase
  have idle : t.serState = .idle := ser.trans (inv.idle (.inl phase))
  have quiet' := quiet (inv.quiescent free notRun)
  obtain seq | ⟨seq, tx⟩ := seq
  · rw [← seq] at phase
    exact .of_quiescent quiet' (.inl ⟨.inl phase, idle⟩) fun _ => phase
  · exact .of_quiescent quiet' (.inl ⟨seq ▸ nextPhase_unarmed phase, idle⟩) fun h => absurd tx h

/-- The completed line's command begins a reply, or ends the phase, in which no message is in progress (R102). -/
theorem SequenceInv.lineEnd {s : State} (inv : SequenceInv s) (ready : s.lineReady) (k : LineKind) :
    SequenceInv (s.storeNewline.command k) := by
  obtain ⟨free, phase, tx⟩ := ready
  have phase := isLine_isReception phase
  obtain ⟨-, hc⟩ | ⟨-, hc⟩ | ⟨-, hc⟩ := s.storeNewline.command_cases k <;> rw [hc]
  · exact inv.reception free phase id rfl (.inl rfl)
  · exact inv.reception free phase id rfl (.inl rfl)
  · exact inv.reception free phase id rfl (.inr ⟨rfl, tx⟩)

/-- The last byte of a message ends the phase and the message together (R109). -/
theorem SequenceInv.fgSend {s : State} (inv : SequenceInv s) (free : s.free) (phase : s.seq.isReception = true)
    (b : Byte) (m : Msg) (k : Nat) : SequenceInv ((s.txByte b).sentByte m k) := by
  obtain ⟨-, hb⟩ | ⟨-, hb⟩ := (s.txByte b).sentByte_cases m k <;> rw [hb]
  · exact inv.reception free phase id rfl (.inr ⟨rfl, rfl⟩)
  · exact inv.reception free phase id rfl (.inl rfl)

theorem SequenceInv.decideBoot {s : State} (inv : SequenceInv s) (free : s.free) (phase : s.seq = .deciding) :
    SequenceInv { s with seq := s.decidedPhase } := by
  have tx : s.fgTx = none := inv.fgTx_eq_none (by rw [phase]; decide)
  exact .of_quiescent (inv.quiescent free (by rw [phase]; decide))
    (.inl ⟨s.decidedPhase_unarmed, inv.idle (.inr (.inl phase))⟩) fun h => absurd tx h

theorem SequenceInv.arm {s : State} (inv : SequenceInv s) (free : s.free) (phase : s.seq = .doArm) :
    SequenceInv { s.armTimer with
      tmrNext := .chA, byteIndex := 0, bitIndex := 0, serState := .armed, seq := .doStart } := by
  have tx : s.fgTx = none := inv.fgTx_eq_none (by rw [phase]; decide)
  have quiet := inv.quiescent free (by rw [phase]; decide)
  exact .of_quiescent (by simpa [State.noPending] using quiet) (.inr ⟨rfl, rfl⟩) fun h => absurd (by simpa using tx) h

/-- DISPATCH finds WAIT_RUN: the handler faults, or it keeps the phase and SER_STATE; in DONE it does nothing (R157). -/
theorem SequenceInv.dispatch {s : State} {ch : Chan} (inv : SequenceInv s) (free : s.free)
    (pend : s.tmrPend.get ch = true) : SequenceInv ((s.setPend ch false).runHandler ch) := by
  have phase := inv.waitRun_of_pending free pend
  have tx := inv.fgTx_eq_none_of_waitRun phase
  by_cases run : s.serState = .running
  · obtain hh | ⟨fault, seq, sending⟩ := (s.setPend ch false).runHandler_faults_or_keeps ch
    · rw [hh]
      exact .of_raiseFault _ (by decide)
    · exact .of_waitRun (seq.trans phase) (fault.trans free.1) (sending.trans tx) (.inl (by simpa using run))
  · rw [State.runHandler_of_not_running (by simpa using run)]
    exact .of_waitRun phase free.1 tx (inv.started_of_waitRun phase)

/-- Each case of a step keeps the sequence's invariant. -/
theorem StepCase.keeps_SequenceInv {s t : State} {m : Move} (h : StepCase s m t) (inv : SequenceInv s) :
    SequenceInv t := by
  cases h with
  | lineEnd rest ready => exact inv.lineEnd ready _
  | dataLast b rest ready =>
    obtain ⟨free, phase, -⟩ := ready
    exact inv.reception free (by rw [phase]; rfl) id rfl (.inl rfl)
  | fgSend m k b tx free phase => exact inv.fgSend free phase b m k
  | decideBoot free phase => exact inv.decideBoot free phase
  | arm free phase => exact inv.arm free phase
  | start free phase => exact .of_waitRun rfl free.1 (inv.fgTx_eq_none (by rw [phase]; decide)) (.inl rfl)
  | fire en ok =>
    obtain ⟨phase, run⟩ := inv.enabled en
    exact .of_waitRun phase ok (inv.fgTx_eq_none_of_waitRun phase) (.inl run)
  | tick en ok =>
    obtain ⟨phase, run⟩ := inv.enabled en
    exact .of_waitRun (by simpa using phase) (by simpa using ok) (by simpa using inv.fgTx_eq_none_of_waitRun phase)
      (.inl (by simpa using run))
  | dispatch ch free pend => exact inv.dispatch free pend
  | dSend ch k b progress ok =>
    obtain ⟨phase, run⟩ := inv.handling (by simp [progress])
    exact .of_waitRun phase ok (inv.fgTx_eq_none_of_waitRun phase) (.inl run)
  | dEnd ch progress ok =>
    obtain ⟨phase, -⟩ := inv.handling (by simp [progress])
    exact .of_waitRun phase ok (inv.fgTx_eq_none_of_waitRun phase) (.inr ⟨rfl, rfl, rfl⟩)
  | cmdOverrun | overrun | framing | fifo => exact .of_raiseFault _ (by decide)
  | reset => exact (State.resetWith_SequenceInv s.cfg).congr rfl
  | _ => exact inv.congr (by simp [State.sequenceView])

/-- Settles O54: taking the move keeps the invariant, and so does each case of the step. -/
theorem stepKeepsTheSequence : Obligations.StepKeepsTheSequence := by
  intro s t inv h
  obtain ⟨-, change⟩ := step_cases h
  exact change.keeps_SequenceInv inv.afterMove

/-! # The sequencer's operations -/

theorem exec_decideBoot {s : State} (free : s.free) (phase : s.seq = .deciding) :
    exec .decideBoot s = .next { s with seq := s.decidedPhase } := if_pos ⟨free, phase⟩

/-- Settles O16: DECIDE goes to the phase that BOOT_FLAG chooses. -/
theorem decideFollowsBootFlag : Obligations.DecideFollowsBootFlag := by
  intro s free phase
  rw [exec_decideBoot free phase]
  exact ⟨fun boot => by simp [State.decidedPhase, boot], fun boot => by simp [State.decidedPhase, boot]⟩

/-- A value up to T4 fits in TIMER_BITS (R10), so that a timer register holds it as written. -/
theorem State.timerValue_eq {s : State} {v : Nat} (h : v ≤ s.cfg.platform.t4) : s.timerValue v = v := by
  obtain ⟨-, -, -, -, fits⟩ := s.cfg.platform.timing_bounds
  exact ticksHeld_eq (Nat.lt_of_le_of_lt h fits)

/-- The timer as `arm()` leaves it (R133), every offset as it was written. -/
theorem State.armTimer_eq (s : State) : s.armTimer = { s with
    tmrPeriod := s.cfg.platform.t4
    tmrCC := ⟨s.cfg.platform.t1, s.cfg.platform.t2, s.cfg.platform.t3, s.cfg.platform.t4⟩
    tmrClr := ⟨false, false, false, true⟩ } := by
  obtain ⟨-, lt12, lt23, lt34, -⟩ := s.cfg.platform.timing_bounds
  have held : ∀ {v}, v ≤ s.cfg.platform.t4 → ticksHeld s.cfg.platform.timerBits v = v := State.timerValue_eq
  simp only [State.armTimer, State.timerConfigure, State.timerArmChannel, PerChan.set, State.timerValue]
  rw [held (v := s.cfg.platform.t1) (by omega), held (v := s.cfg.platform.t2) (by omega),
    held (v := s.cfg.platform.t3) (by omega), held (Nat.le_refl _)]

/-- Settles O17: the timer's part of ARM writes every offset as it is, since T4 fits in TIMER_BITS. -/
theorem armConfiguresTimerAndCursor : Obligations.ArmConfiguresTimerAndCursor := by
  intro s free phase ser
  exact ⟨_, (if_pos ⟨phase, ser⟩).trans (if_pos free), by rw [State.armTimer_eq]⟩

/-- Settles O18: START is in its place, and nothing stops it. -/
theorem startEnablesTimer : Obligations.StartEnablesTimer :=
  fun _ free phase ser => (if_pos ⟨phase, ser⟩).trans (if_pos free)

/-- Settles O19: both operations test their place first. -/
theorem armAndStartOutOfOrderAreRefused : Obligations.ArmAndStartOutOfOrderAreRefused :=
  fun _ => ⟨fun place => if_neg place, fun place => if_neg place⟩

theorem exec_waitRun {s : State} (free : s.free) (phase : s.seq = .waitRun) : exec .waitRun s = .next s :=
  if_pos ⟨free, phase⟩

theorem exec_waitIdle {s : State} (free : s.free) (phase : s.seq = .waitIdle) : exec .waitIdle s = .next s :=
  if_pos ⟨free, phase⟩

/-- A fault, or a handler in progress, holds the foreground (R205, R217). -/
theorem fetchForeground_of_not_free {s : State} (held : ¬ s.free) : fetchForeground s = .nothing := if_neg held

/-- Settles O20: a foreground move in a wait performs the wait, which changes nothing, or is held. -/
theorem waitsNeverEnd : Obligations.WaitsNeverEnd := by
  refine ⟨fun _ => exec_waitRun, fun _ => exec_waitIdle, fun s legal mv phase => ?_⟩
  by_cases free : s.free
  · have free' := State.afterMove_free free
    obtain ⟨-, -, -, waitRun, waitIdle, -⟩ := step_foreground legal mv free
    obtain phase | phase := phase
    · rw [waitRun phase, exec_waitRun free' (by simpa using phase)]
    · rw [waitIdle phase, exec_waitIdle free' (by simpa using phase)]
  · exact step_of_nothing legal mv (fetchForeground_of_not_free (by simpa using free))

end Sys2Proof.Machine

namespace Sys2Proof.Machine

/-! # The serializer's operations -/

/-- While RUNNING, a compare event inside IMAGE performs the body that the handler selects for its channel (R151). -/
theorem exec_event {s : State} (free : s.free) (run : s.serState = .running) (ch : Chan) :
    exec (eventInstr true true ch) s = .next (s.runHandler ch) := by
  simp only [State.runHandler, run]
  cases ch <;> exact if_pos ⟨free, run⟩

/-- EVT_A inside IMAGE writes DATA and moves the cursor, and nothing else (R152). -/
theorem State.evtABody_inside {s : State} (inside : s.byteIndex.toNat < imageSize) :
    s.evtABody.line.data = dataLevel s.evtBit ∧ s.evtABody.cursor = s.cursor + 1
      ∧ s.evtABody = { s with
          line := { s.line with data := s.evtABody.line.data }
          history := .lineWrite .data s.evtABody.line.data (some .chA) :: s.history
          bitIndex := s.evtABody.bitIndex, byteIndex := s.evtABody.byteIndex } := by
  obtain ⟨outside, -⟩ | ⟨-, body⟩ := s.evtABody_cases
  · exact absurd outside (Nat.not_le.2 inside)
  · have moved := State.advanceCursor_cursor (s := s.setLine .data (dataLevel s.evtBit) (some .chA)) inside
    rw [body]
    refine ⟨by rw [State.advanceCursor_line]; rfl, moved, ?_⟩
    obtain ⟨-, h⟩ | ⟨-, h⟩ := (s.setLine .data (dataLevel s.evtBit) (some .chA)).advanceCursor_cases <;> rw [h] <;> rfl

/-- Settles O21: inside IMAGE the body writes DATA and moves the cursor on by one bit, which from bit 7 enters the next
byte; outside, the fault leaves the lines and the cursor. -/
theorem evtAEmitsTheBitInverted : Obligations.EvtAEmitsTheBitInverted := by
  intro s free run
  have body : exec .evtA s = .next s.evtABody := if_pos ⟨free, run⟩
  refine ⟨fun inside => ?_, fun outside => ?_⟩
  · obtain ⟨data, moved, frame⟩ := State.evtABody_inside inside
    have byteIndex := s.evtABody.cursor_div
    have bitIndex := s.evtABody.cursor_mod
    rw [moved, State.cursor] at byteIndex bitIndex
    refine ⟨s.evtABody, body, frame, data.trans (dataLevel_bit _ _), fun mid => ⟨by omega, by omega⟩,
      fun last => ⟨by omega, by omega⟩, State.readImage_congr (by simp) (by simp),
      State.readCmd_congr (by simp) (by simp)⟩
  · obtain ⟨-, h⟩ | ⟨inside, -⟩ := s.evtABody_cases
    · exact ⟨s.raiseFault .imageOob, body.trans (congrArg _ h), rfl, rfl, rfl, rfl⟩
    · exact absurd outside (Nat.not_le.2 inside)

theorem Level.ite_flip_eq_iff (p : Prop) [Decidable p] (l : Level) : (if p then l else l.flip) = l ↔ p := by
  by_cases h : p <;> simp [h, Level.flip_ne]

/-- Settles O23: one write of LATCH, whose level is the asserted one exactly at a word boundary. -/
theorem evtBLatchesAtWordBoundaries : Obligations.EvtBLatchesAtWordBoundaries := by
  intro s free run
  have body : exec .evtB s = .next s.evtBBody := if_pos ⟨free, run⟩
  rw [State.evtBBody_eq] at body
  have boundary : s.atBoundary ↔ s.bitIndex.toNat = 0 ∧ s.byteIndex.toNat % 4 = 0 :=
    and_congr_left' BitVec.toNat_inj.symm
  exact ⟨_, body, rfl, (Level.ite_flip_eq_iff _ _).trans boundary, fun _ => rfl, fun _ => rfl⟩

/-- Settles O24: CLOCK is asserted LOW. -/
theorem evtCDrivesClockLow : Obligations.EvtCDrivesClockLow := fun _ free run => if_pos ⟨free, run⟩

/-- Settles O25: the terminal test is equality (R160), and each branch writes its lines. -/
theorem evtDRaisesClockAndTerminates : Obligations.EvtDRaisesClockAndTerminates := by
  intro s free run
  have body : exec .evtD s = .next s.evtDBody := if_pos ⟨free, run⟩
  rw [body]
  obtain ⟨terminal, h⟩ | ⟨short, h⟩ := s.evtDBody_cases <;> rw [h]
  · exact ⟨fun short => absurd terminal short, fun _ => rfl⟩
  · exact ⟨fun _ => rfl, fun terminal => absurd terminal short⟩

/-- Settles O26: a byte of the message with room, and after the last one the end of the sequence. -/
theorem dSendSendsTheMessageThenStops : Obligations.DSendSendsTheMessageThenStops := by
  intro s k ok progress
  refine ⟨fun b byte room => execDSend_room ok progress byte room, fun last => ?_⟩
  obtain rfl : k = 17 := Fin.ext last
  exact execDSend_end ok progress

/-- Settles O28: the operation is enabled, and its meaning is to do nothing. -/
theorem ignoredEventsChangeNothing : Obligations.IgnoredEventsChangeNothing :=
  fun _ _ free halted => if_pos ⟨free, halted⟩

/-- Settles O29: a write of one line leaves the others as they were. -/
theorem setLineWritesOneLine : Obligations.SetLineWritesOneLine := by
  intro s id l
  refine ⟨s.setLine id l none, rfl, rfl, Lines.get_set_same _ _ _, fun id' other => ?_, fun _ => rfl, fun _ => rfl⟩
  exact (s.setLine_keeps_others l none other).level

/-- Settles O30: with the bit cleared the handler runs, which does nothing unless RUNNING. -/
theorem dispatchRunsTheSelectedHandler : Obligations.DispatchRunsTheSelectedHandler := by
  intro s ch free pend
  refine ⟨(s.setPend ch false).runHandler ch, if_pos ⟨free, pend⟩,
    fun halted => State.runHandler_of_not_running halted, fun run => ?_⟩
  have event := exec_event (s := s.setPend ch false) free run ch
  cases ch <;> exact event

/-! # SER_STATE's transitions, and DONE -/

/-- What a step can do to SER_STATE (R150). -/
theorem StepCase.serState_cases {s t : State} {m : Move} (h : StepCase s m t) (inv : SequenceInv s) (hm : m ≠ .reset) :
    t.serState = s.serState
      ∨ (s.serState = .idle ∧ t.serState = .armed ∧ m = .fg ∧ s.seq = .doArm)
      ∨ (s.serState = .armed ∧ t.serState = .running ∧ m = .fg ∧ s.seq = .doStart)
      ∨ (s.serState = .running ∧ t.serState = .done ∧ s.handler = some 17 ∧ ∃ ch, m = .isr ch) := by
  cases h with
  | arm free phase ser => exact .inr (.inl ⟨ser, rfl, rfl, phase⟩)
  | start free phase ser => exact .inr (.inr (.inl ⟨ser, rfl, rfl, phase⟩))
  | dEnd ch progress ok =>
    obtain ⟨-, run⟩ := inv.handling (by simp [progress])
    exact .inr (.inr (.inr ⟨run, rfl, progress, ch, rfl⟩))
  | reset => exact absurd rfl hm
  | _ => exact .inl (by simp)

/-- Settles O41: ARM, START and the last D_SEND write SER_STATE, the last from RUNNING by the sequence's invariant. -/
theorem serStateTransitions : Obligations.SerStateTransitions := by
  intro s t inv h hm
  obtain ⟨-, change⟩ := step_cases h
  simpa using change.serState_cases inv.afterMove hm

theorem Lines.ext_get {v w : Lines} (h : ∀ id, v.get id = w.get id) : v = w := by
  obtain ⟨data, latch, clock, finish⟩ := v
  obtain rfl : data = w.data := h .data
  obtain rfl : latch = w.latch := h .latch
  obtain rfl : clock = w.clock := h .clock
  obtain rfl : finish = w.finish := h .finish
  rfl

/-- In DONE no step but the platform's reset moves SER_STATE or the cursor. -/
theorem StepCase.done_stays {s t : State} {m : Move} (h : StepCase s m t) (done : s.serState = .done)
    (hm : m ≠ .reset) : t.serState = .done ∧ t.byteIndex = s.byteIndex ∧ t.bitIndex = s.bitIndex := by
  cases h with
  | arm free phase ser | start free phase ser => simp [done] at ser
  | dispatch ch free pend =>
    rw [State.runHandler_of_not_running (by simp [done])]
    exact ⟨done, rfl, rfl⟩
  | dEnd => exact ⟨rfl, rfl, rfl⟩
  | reset => exact absurd rfl hm
  | _ => simp [done]

/-- Settles O45: a line is written while RUNNING only, and nothing leaves DONE. -/
theorem doneStaysQuiet : Obligations.DoneStaysQuiet := by
  intro s t done h hm
  obtain ⟨-, change⟩ := step_cases h
  have kept : ∀ id, LineKept id s.afterMove t := fun id =>
    (change.lineOwned hm id).resolve_right fun ⟨⟨run, _⟩, _⟩ => by simp [done] at run
  obtain ⟨ser, byteIndex, bitIndex⟩ := change.done_stays (by simpa using done) hm
  exact ⟨ser, Lines.ext_get fun id => by simpa using (kept id).level, by simpa using byteIndex,
    by simpa using bitIndex, fun id => by simpa using (kept id).writes⟩

end Sys2Proof.Machine

namespace Sys2Proof.Machine

/-! # IMAGE is read inside its range, and only where it was written -/

/-- Under the cursor's invariants a pending EVT_A finds the cursor inside IMAGE, since none is handled at the terminal
cursor. -/
theorem CursorInv.inside_of_pending {s : State} (inv : CursorInv s) (legal : s.cfg.legal = true) (free : s.free)
    (run : s.serState = .running) (pend : s.tmrPend.get .chA = true) : s.byteIndex.toNat < imageSize := by
  obtain ⟨ok, idle⟩ := free
  obtain ⟨-, le_imageSize⟩ := Params.legal_bounds legal
  obtain ⟨one, notA⟩ := inv.running ok run idle
  obtain ⟨-, handled, -⟩ := one.taken pend
  exact Nat.lt_of_lt_of_le (Nat.lt_of_le_of_ne inv.bound fun terminal => notA terminal handled) le_imageSize

/-- Only an EVT_A could raise IMAGE_OOB, and the cursor's invariants keep it inside IMAGE. -/
theorem StepCase.fault_ne_imageOob {s t : State} {m : Move} (h : StepCase s m t) (inv : CursorInv s)
    (legal : s.cfg.legal = true) (ok : s.fault = .noFault) : t.fault ≠ .imageOob := by
  intro raised
  have cause := h.faultCause ok
  rw [raised] at cause
  obtain ⟨rfl, run, outside⟩ := cause
  cases h with
  | dispatch ch free pend => exact Nat.not_lt.2 outside (inv.inside_of_pending legal free run pend)
  | _ => simp [ok] at raised

/-- Where every index below `n` was written and `n` is written next, every index below `n + 1` was. -/
theorem Memory.read_write_ne_none {m : Memory} {n : Nat} (v : Byte) (written : ∀ a, a < n → Memory.read m a ≠ none)
    (a : Nat) (ha : a < n + 1) : Memory.read (Memory.write m n v) a ≠ none := by
  rw [Memory.read_write]
  split
  · simp
  · exact written a (by omega)

/-- DATA_BYTE and DATA_LAST write IMAGE at DATA_CNT and count it (R107, R108). -/
theorem StepCase.keeps_written {s t : State} {m : Move} (h : StepCase s m t)
    (written : ∀ a, a < s.dataCnt.toNat → Memory.read s.image a ≠ none) :
    ∀ a, a < t.dataCnt.toNat → Memory.read t.image a ≠ none := by
  cases h with
  | dataByte b rest ready head room =>
    intro a below
    exact Memory.read_write_ne_none b written a (by rwa [State.dataCnt_succ_toNat room] at below)
  | dataLast b rest ready head last =>
    rw [last] at written
    exact Memory.read_write_ne_none b written
  | reset => exact fun a below => absurd below (Nat.not_lt_zero a)
  | _ => simpa using written

/-- Whether the image is received is told by the phase and the message in progress. -/
theorem State.dataReceived_congr {s t : State} (received : t.dataReceived = true) (seq : t.seq = s.seq)
    (tx : t.fgTx = s.fgTx) : s.dataReceived = true := by
  rwa [State.dataReceived, seq, tx] at received

/-- In LineDelimited mode the phase alone tells it. -/
theorem State.dataReceived_of_isLine {s t : State} (received : t.dataReceived = true) (seq : t.seq = s.seq)
    (phase : s.seq.isLine = true) : s.dataReceived = true := by
  cases hq : s.seq with
  | rxCmd1 => simp [State.dataReceived, seq, hq] at received
  | rxCmd2 => simp [State.dataReceived, hq]
  | _ => simp [hq, Seq.isLine] at phase

/-- A phase that a receive's return begins finds the image received only if the receive did, in RX_DATA by its
acknowledgment. -/
theorem State.dataReceived_of_nextPhase {s t : State} (received : t.dataReceived = true)
    (seq : t.seq = nextPhase s.seq) (tx : t.fgTx = none) (sent : s.seq = .rxData → s.fgTx ≠ none) :
    s.dataReceived = true := by
  cases hq : s.seq with
  | rxData => simpa [State.dataReceived, hq, Option.isSome_iff_ne_none] using sent hq
  | rxCmd1 | faulted => simp [State.dataReceived, seq, tx, hq, nextPhase] at received
  | _ => simp [State.dataReceived, hq]

/-- A step that finds the image received afterwards found it so before and kept DATA_CNT, or it is DATA_LAST. -/
theorem StepCase.dataReceived_cases {s t : State} {m : Move} (h : StepCase s m t) (received : t.dataReceived = true) :
    (s.dataReceived = true ∧ t.dataCnt = s.dataCnt) ∨ t.dataCnt.toNat = imageSize := by
  cases h with
  | lineEnd rest ready =>
    obtain ⟨-, phase, tx⟩ := ready
    refine .inl ⟨?_, by simp⟩
    obtain ⟨-, hc⟩ | ⟨-, hc⟩ | ⟨-, hc⟩ := s.storeNewline.command_cases
      (classify (s.storeNewline.lineBytes (s.cmdLen.toNat + 1))) <;> rw [hc] at received
    · exact State.dataReceived_of_isLine received rfl phase
    · exact State.dataReceived_of_isLine received rfl phase
    · exact State.dataReceived_of_nextPhase received rfl tx fun raw => by simp [raw, Seq.isLine] at phase
  | dataByte b rest ready =>
    obtain ⟨-, phase, tx⟩ := ready
    simp [State.dataReceived, phase, tx] at received
  | dataLast => exact .inr rfl
  | fgSend m k b tx =>
    have sending : s.fgTx ≠ none := by simp [tx]
    refine .inl ⟨?_, by simp⟩
    obtain ⟨-, hb⟩ | ⟨-, hb⟩ := (s.txByte b).sentByte_cases m k <;> rw [hb] at received
    · exact State.dataReceived_of_nextPhase received rfl rfl fun _ => sending
    · simpa [State.dataReceived, tx] using received
  | decideBoot free phase | arm free phase | start free phase =>
    exact .inl ⟨by simp [State.dataReceived, phase], by simp⟩
  | dispatch ch free pend =>
    refine .inl ⟨?_, by simp⟩
    obtain hh | ⟨-, seq, tx⟩ := (s.setPend ch false).runHandler_faults_or_keeps ch
    · simp [hh, State.dataReceived] at received
    · exact State.dataReceived_congr received seq tx
  | cmdOverrun | overrun | framing | fifo | reset => exact nomatch received
  | _ => exact .inl ⟨State.dataReceived_congr received (by simp) (by simp), by simp⟩

theorem StepCase.keeps_PopulatedInv {s t : State} {m : Move} (h : StepCase s m t) (inv : PopulatedInv s) :
    PopulatedInv t where
  written := h.keeps_written inv.written
  full received := (h.dataReceived_cases received).elim (fun ⟨before, kept⟩ => kept ▸ inv.full before) id

theorem PopulatedInv.afterMove {s : State} (inv : PopulatedInv s) : PopulatedInv s.afterMove where
  written := by simpa using inv.written
  full received := by simpa using inv.full (State.dataReceived_congr received (by simp) (by simp))

/-- Without a fault the serializer is RUNNING in WAIT_RUN only (R130, R150). -/
theorem SequenceInv.waitRun_of_running {s : State} (inv : SequenceInv s) (ok : s.fault = .noFault)
    (run : s.serState = .running) : s.seq = .waitRun := by
  have started : ¬ s.seq.Unarmed := fun phase => by simp [inv.idle phase] at run
  cases phase : s.seq with
  | waitRun => rfl
  | doStart => simp [inv.armed phase] at run
  | faulted => exact absurd ok (inv.faulted.1 phase)
  | _ => simp [phase, Seq.Unarmed, Seq.isReception] at started

/-- Settles O57: no EVT_A is handled at the terminal cursor, each index is written before DATA_CNT counts it, and a
serializer runs only once the image is received. -/
theorem noOutOfRangeReadUnderDeadline : Obligations.NoOutOfRangeReadUnderDeadline := by
  refine ⟨fun s t inv ok h => ?_, fun s t inv h => ?_, fun s inv populated ok run inside => ?_⟩
  · obtain ⟨legal, change⟩ := step_cases h
    exact change.fault_ne_imageOob (inv.congr (by simp [State.cursorView])) (by simpa using legal) (by simpa using ok)
  · obtain ⟨-, change⟩ := step_cases h
    exact change.keeps_PopulatedInv inv.afterMove
  · have received : s.dataReceived = true := by rw [State.dataReceived, inv.waitRun_of_running ok run]
    exact populated.written _ (populated.full received ▸ inside)

end Sys2Proof.Machine

namespace Sys2Proof.Machine

/-! # Where the periods lead

After `n` periods the cursor has passed `n` bits; at the terminal count, and nowhere before, EVT_D has begun the
completion sequence. -/

theorem State.atBoundary_iff (s : State) : s.atBoundary ↔ s.cursor % 32 = 0 := by
  have := s.bitIndex.isLt
  have bit : s.bitIndex = 0 ↔ s.bitIndex.toNat = 0 := BitVec.toNat_inj.symm
  rw [State.atBoundary, bit, State.cursor]
  omega

@[simp] theorem State.afterEvent_readCmd (s : State) (ch : Chan) (a : Nat) :
    (s.afterEvent ch).readCmd a = s.readCmd a :=
  State.readCmd_congr (State.runHandler_cmd _ _) (State.runHandler_resets _ _) a

@[simp] theorem State.afterPeriod_serState (s : State) : s.afterPeriod.serState = s.serState := by
  simp [State.afterPeriod]
@[simp] theorem State.afterPeriod_tmrPend (s : State) : s.afterPeriod.tmrPend = s.tmrPend := by
  simp [State.afterPeriod]
@[simp] theorem State.afterPeriod_tmrNext (s : State) : s.afterPeriod.tmrNext = .chA := by
  simp [State.afterPeriod, nextChan]
@[simp] theorem State.afterPeriod_readCmd (s : State) (a : Nat) : s.afterPeriod.readCmd a = s.readCmd a := by
  simp [State.afterPeriod]

/-- What EVT_D leaves of the fault, the handler and the lines, at the terminal cursor and short of it (R155). -/
theorem State.Awaits.afterEvent_chD {s : State} (h : s.Awaits .chD) :
    (s.afterEvent .chD).fault = .noFault
      ∧ (s.afterEvent .chD).handler = (if s.atTerminal then some 0 else none)
      ∧ (s.afterEvent .chD).line = { s.line with
          clock := .high, finish := if s.atTerminal then s.cfg.platform.finishActive else s.line.finish } := by
  obtain ⟨terminal, eq⟩ | ⟨short, eq⟩ := State.afterEvent_chD h.run <;> rw [eq]
  · rw [if_pos terminal, if_pos terminal]
    exact ⟨h.ok, rfl, rfl⟩
  · rw [if_neg short, if_neg short]
    exact ⟨h.ok, h.idle, rfl⟩

/-- Before its EVT_D a period has emitted its bit, so the cursor is the one that EVT_D tests (R155). -/
theorem State.AtBit.cursor_at_chD {s : State} {n : Nat} (h : s.AtBit n) (short : n < 8 * s.cfg.terminalCount) :
    (((s.afterEvent .chA).afterEvent .chB).afterEvent .chC).cursor = n + 1 := by
  obtain ⟨awaitsB, awaitsC, -⟩ := (h.awaits short).within_period (h.inside short)
  rw [State.afterEvent_cursor awaitsC.run (by decide), State.afterEvent_cursor awaitsB.run (by decide),
    State.afterEvent_chA_cursor (h.awaits short).run (h.inside short), h.cursor]

/-- The lines before the EVT_D of a period: LATCH is asserted where the bit's number is a multiple of 32 (R153). -/
theorem State.AtBit.line_at_chD {s : State} {n : Nat} (h : s.AtBit n) (short : n < 8 * s.cfg.terminalCount) :
    (((s.afterEvent .chA).afterEvent .chB).afterEvent .chC).line = { s.line with
      data := dataLevel s.evtBit
      latch := if (n + 1) % 32 = 0 then s.cfg.platform.latchActive else s.cfg.platform.latchActive.flip
      clock := .low } := by
  have awaitsA := h.awaits short
  obtain ⟨awaitsB, awaitsC, -⟩ := awaitsA.within_period (h.inside short)
  have boundary : (s.afterEvent .chA).atBoundary ↔ (n + 1) % 32 = 0 := by
    rw [State.atBoundary_iff, State.afterEvent_chA_cursor awaitsA.run (h.inside short), h.cursor]
  have lineA : (s.afterEvent .chA).line = { s.line with data := dataLevel s.evtBit } := by
    rw [State.afterEvent_chA awaitsA.run (h.inside short), State.advanceCursor_line]
    rfl
  rw [State.afterEvent_chC awaitsC.run, State.afterEvent_chB awaitsB.run]
  simp [boundary, lineA, State.eventTaken, State.asserted, State.deasserted, assertedLevel, Lines.set]

/-- What a period leaves of the fault, the handler and the lines. -/
theorem State.AtBit.afterPeriod_ends {s : State} {n : Nat} (h : s.AtBit n) (short : n < 8 * s.cfg.terminalCount) :
    s.afterPeriod.fault = .noFault
      ∧ s.afterPeriod.handler = (if n + 1 = 8 * s.cfg.terminalCount then some 0 else none)
      ∧ s.afterPeriod.line = {
          data := dataLevel s.evtBit
          latch := if (n + 1) % 32 = 0 then s.cfg.platform.latchActive else s.cfg.platform.latchActive.flip
          clock := .high
          finish := if n + 1 = 8 * s.cfg.terminalCount then s.cfg.platform.finishActive else s.line.finish } := by
  obtain ⟨-, -, awaitsD⟩ := (h.awaits short).within_period (h.inside short)
  have line := h.line_at_chD short
  have cursor := h.cursor_at_chD short
  have cfg : (((s.afterEvent .chA).afterEvent .chB).afterEvent .chC).cfg = s.cfg := by simp
  rw [State.afterPeriod]
  generalize (((s.afterEvent .chA).afterEvent .chB).afterEvent .chC) = u at *
  have terminal : u.atTerminal ↔ n + 1 = 8 * s.cfg.terminalCount := by
    rw [State.atTerminal, ← State.cursor_div, cursor, cfg]
    omega
  simpa only [terminal, line, cfg] using awaitsD.afterEvent_chD

/-- What `n` periods have made of the state `s` (R163, R165, R166): its fields, but for the cursor, and its lines. -/
structure State.Serialized (s : State) (n : Nat) (t : State) : Prop where
  cfg : t.cfg = s.cfg
  ok : t.fault = .noFault
  run : t.serState = .running
  next : t.tmrNext = .chA
  quiet : t.noPending
  memory : SameMemory s t
  handler : t.handler = if n = 8 * s.cfg.terminalCount then some 0 else none
  latch : 0 < n → (t.line.latch = s.cfg.platform.latchActive ↔ n % 32 = 0)
  clock : 0 < n → t.line.clock = .high
  finish : t.line.finish = if n = 8 * s.cfg.terminalCount then s.cfg.platform.finishActive else s.line.finish

theorem State.Serialized.zero {s : State} (h : s.Awaits .chA) : s.Serialized 0 s := by
  obtain ⟨one_le, -⟩ := Params.legal_bounds h.legal
  have before : 0 ≠ 8 * s.cfg.terminalCount := by omega
  exact {
    cfg := rfl
    ok := h.ok
    run := h.run
    next := h.next
    quiet := h.quiet
    memory := ⟨fun _ => rfl, fun _ => rfl⟩
    handler := by rw [if_neg before, h.idle]
    latch := nofun
    clock := nofun
    finish := by rw [if_neg before] }

theorem State.Serialized.afterPeriod {s u : State} {n : Nat} (atBit : u.AtBit n)
    (short : n < 8 * u.cfg.terminalCount) (h : s.Serialized n u) : s.Serialized (n + 1) u.afterPeriod := by
  obtain ⟨ok, handler, line⟩ := atBit.afterPeriod_ends short
  have before : n ≠ 8 * s.cfg.terminalCount := by rw [← h.cfg]; omega
  obtain ⟨image, cmd⟩ := h.memory
  rw [h.cfg] at handler line
  exact {
    cfg := u.afterPeriod_cfg.trans h.cfg
    ok := ok
    run := u.afterPeriod_serState.trans h.run
    next := u.afterPeriod_tmrNext
    quiet := u.afterPeriod_tmrPend.trans h.quiet
    memory := ⟨fun a => (u.afterPeriod_readImage a).trans (image a), fun a => (u.afterPeriod_readCmd a).trans (cmd a)⟩
    handler := handler
    latch := fun _ => by
      rw [line]
      exact Level.ite_flip_eq_iff _ _
    clock := fun _ => by rw [line]
    finish := by rw [line, h.finish, if_neg before] }

/-- From the start, the moves of `p` periods serialize `p` bits. -/
theorem AtPeriodStart.run_serialized {s : State} {p : Nat} {rest : List Move} (start : AtPeriodStart s)
    (byteIndex : s.byteIndex = 0) (bitIndex : s.bitIndex = 0) (bound : p ≤ 8 * s.cfg.terminalCount)
    (agenda : s.agenda = periods p ++ rest) :
    ∃ t, Host.Core.run core (8 * p) s = .next t ∧ t.agenda = rest ∧ t.cursor = p ∧ s.Serialized p t := by
  have atStart : s.AtBit 0 :=
    { cursor := by simp [State.cursor, byteIndex, bitIndex]
      legal := start.awaits.legal
      awaits := fun _ => start.awaits }
  obtain ⟨t, ran, left, atBit, done⟩ := run_periods (motive := s.Serialized) (fun _ _ => State.Serialized.afterPeriod) p
    atStart (by simpa using bound) agenda (.zero start.awaits)
  rw [Nat.zero_add] at atBit done
  exact ⟨t, ran, left, atBit.cursor, done⟩

/-- Settles O58: each period moves the cursor on by one bit, and its EVT_D terminates at the terminal count only. -/
theorem periodsMoveTheCursorAndTerminate : Obligations.PeriodsMoveTheCursorAndTerminate := by
  intro s p rest start byteIndex bitIndex bound agenda
  obtain ⟨t, ran, left, cursor, done⟩ := start.run_serialized byteIndex bitIndex bound agenda
  exact ⟨t, ran, left, done.ok, done.run, done.quiet, done.next, cursor ▸ (State.cursor_div t).symm,
    cursor ▸ (State.cursor_mod t).symm, done.handler, done.memory⟩

/-- Settles O59: the last period's EVT_B latched at a word boundary only, and its EVT_D raised CLOCK. -/
theorem periodsLeaveTheirLevels : Obligations.PeriodsLeaveTheirLevels := by
  intro s p rest start byteIndex bitIndex pos bound agenda
  obtain ⟨t, ran, -, -, done⟩ := start.run_serialized byteIndex bitIndex bound agenda
  exact ⟨t, ran, done.latch pos, done.clock pos, done.finish⟩

end Sys2Proof.Machine

namespace Sys2Proof.Machine

/-! # Faults stay, and a handler runs to its end -/

/-- After a fault no operation is enabled (R205): a step waits, or it delivers a byte already in TXQ (R204). -/
theorem StepCase.faulted_cases {s t : State} {m : Move} (h : StepCase s m t) (faulted : s.fault ≠ .noFault)
    (hm : m ≠ .reset) : t = s ∨ ∃ b, s.txq = b :: t.txq ∧ t = s.hostPull b := by
  cases h with
  | nothing => exact .inl rfl
  | pull b rest head => exact .inr ⟨b, by simp [head], rfl⟩
  | reset => exact absurd rfl hm
  | lineAppend b rest ready | lineEnd rest ready | cmdOverrun b rest ready | dataByte b rest ready
  | dataLast b rest ready =>
    obtain ⟨⟨ok, -⟩, -⟩ := ready
    exact absurd ok faulted
  | fgSend m k b tx free | decideBoot free | arm free | start free | dispatch ch free =>
    obtain ⟨ok, -⟩ := free
    exact absurd ok faulted
  | fire en ok | tick en ok | dSend ch k b progress ok | dEnd ch progress ok | push b ok | overrun b ok | framing ok
  | fifo ok => exact absurd ok faulted

/-- Settles O36: of the cases of a step from a faulted state, only the pull changes a field, and it writes TXQ and the
history. -/
theorem faultsAreSticky : Obligations.FaultsAreSticky := by
  intro s t faulted hm h
  obtain ⟨-, change⟩ := step_cases h
  obtain rfl | ⟨b, head, rfl⟩ := change.faulted_cases (by simpa using faulted) hm
  · exact ⟨rfl, .inl ⟨s.afterMove_txq, s.afterMove_history⟩⟩
  · exact ⟨rfl, .inr ⟨b, by simpa using head, by simp⟩⟩

/-- A handler in progress bars DISPATCH (R217), and D_SEND writes no pending bit, no line and not the cursor (R156). -/
theorem StepCase.isr_keeps_of_handling {s t : State} {ch : Chan} (h : StepCase s (.isr ch) t)
    (progress : s.handler ≠ none) :
    t.tmrPend = s.tmrPend ∧ t.byteIndex = s.byteIndex ∧ t.bitIndex = s.bitIndex ∧ t.line = s.line := by
  cases h with
  | dispatch _ free =>
    obtain ⟨-, idle⟩ := free
    exact absurd idle progress
  | nothing | dSend | dEnd => exact ⟨rfl, rfl, rfl, rfl⟩

/-- Settles O40: the handler holds the foreground, and the interrupt context's step is one of the handler's. -/
theorem handlerIsNotPreempted : Obligations.HandlerIsNotPreempted := by
  intro s t progress h
  obtain ⟨legal, change⟩ := step_cases h
  refine ⟨fun mv => ?_, fun ch mv => ?_⟩
  · have held : ¬ s.afterMove.free := fun ⟨_, idle⟩ => progress (by simpa using idle)
    have waits := step_of_nothing legal mv (fetchForeground_of_not_free held)
    exact Host.Outcome.next.inj (h.symm.trans waits)
  · rw [mv] at change
    simpa using change.isr_keeps_of_handling (by simpa using progress)

/-! # EVT_A outside IMAGE -/

theorem State.evtABody_outside {s : State} (outside : imageSize ≤ s.byteIndex.toNat) :
    s.evtABody = s.raiseFault .imageOob := if_pos outside

/-- Settles O22: outside IMAGE EVT_A's body is the exception entry, which is all that FAULT_IMAGE_OOB is. -/
theorem imageOutOfRangeFaults : Obligations.ImageOutOfRangeFaults := by
  intro s free run outside
  have body : exec .evtA s = .next s.evtABody := if_pos ⟨free, run⟩
  exact ⟨body.trans (congrArg _ (State.evtABody_outside outside)), if_pos ⟨free, run, outside⟩⟩

/-! # The timer's operations -/

/-- The cyclic order of the channels is counting modulo four (R35, R87). -/
theorem nextChan_code (ch : Chan) : (nextChan ch).code.toNat = (ch.code.toNat + 1) % 4 := by
  cases ch <;> rfl

theorem PerChan.get_set_ne {α : Type} (v : PerChan α) {ch ch' : Chan} (x : α) (ne : ch' ≠ ch) :
    (v.set ch x).get ch' = v.get ch' := by
  rw [PerChan.get_set, if_neg ne]

/-- Settles O31: the firing sets TMR_NEXT's pending bit and moves TMR_NEXT on. -/
theorem timerFiresChannelsInOrder : Obligations.TimerFiresChannelsInOrder :=
  fun s en ok => ⟨s.fire, if_pos ⟨en, ok⟩, rfl, PerChan.get_set_same _ _ _, fun _ => PerChan.get_set_ne _ _,
    nextChan_code _⟩

/-- Settles O32: each operation is enabled everywhere and answers its own update; a value that fits is held as it is. -/
theorem timerOperationsWriteTheirRegisters : Obligations.TimerOperationsWriteTheirRegisters := by
  intro s p off ch clr
  refine ⟨⟨s.timerConfigure p, rfl, rfl, ticksHeld_eq⟩,
    ⟨s.timerArmChannel ch off clr, rfl, rfl, fun fits => ?_, PerChan.get_set_same _ _ _, fun ch' ne => ?_⟩, rfl, rfl⟩
  · exact (PerChan.get_set_same _ _ _).trans (ticksHeld_eq fits)
  · exact ⟨PerChan.get_set_ne _ _ ne, PerChan.get_set_ne _ _ ne⟩

end Sys2Proof.Machine

namespace Sys2Proof.Machine

/-! # Waiting for room, or for a byte -/

/-- FG_SEND while TXQ is full waits (R109). -/
theorem execFgSend_full {s : State} {m : Msg} {k : Nat} (free : s.free) (phase : s.seq.isReception = true)
    (tx : s.fgTx = some ⟨m, k⟩) (hk : k < m.bytes.length) (full : ¬ s.txRoom) : execFgSend s = .next s := by
  have byte : m.bytes[k]? = some m.bytes[k] := List.getElem?_eq_getElem hk
  simp [execFgSend, tx, free, phase, byte, full]

/-- D_SEND with a byte of the message left waits while TXQ is full (R156). -/
theorem execDSend_full {s : State} {k : Fin 18} (ok : s.fault = .noFault) (progress : s.handler = some k)
    (hk : k.val < bootloadSuccess.length) (full : ¬ s.txRoom) : execDSend s = .next s := by
  have byte : bootloadSuccess[k.val]? = some bootloadSuccess[k.val] := List.getElem?_eq_getElem hk
  simp [execDSend, progress, ok, byte, full]

/-- A reception phase with no byte to send and none received has no enabled step (R110). -/
theorem fetchForeground_of_no_byte {s : State} (phase : s.seq.isReception = true) (tx : s.fgTx = none)
    (rx : s.rxq = []) : fetchForeground s = .nothing := by
  cases hq : s.seq with
  | rxCmd1 | rxData | rxCmd2 => simp [fetchForeground, hq, tx, rx]
  | _ => simp [hq, Seq.isReception] at phase

/-- Settles O12: a sender finds TXQ full and answers its own state, and a receiver finds nothing to fetch. -/
theorem blockedAgentsWait : Obligations.BlockedAgentsWait :=
  ⟨fun _ _ _ => execFgSend_full, fun _ _ => execDSend_full, fun _ legal mv phase tx rx =>
    step_of_nothing legal mv
      (fetchForeground_of_no_byte (by simpa using phase) (by simpa using tx) (by simpa using rx))⟩

end Sys2Proof.Machine
